-- ==== Sys2Proof/Word.lean ====
section
/-! DEFINITION. The word types of the block (spec 00_scope.md R10, R12; 30_encoding.md R79). -/

namespace Sys2Proof

/-- A byte: 8 bits, unsigned, 0 to 255 (R12). -/
abbrev Byte := BitVec 8

/-- A word: 16 bits, unsigned, 0 to 65535 (R12): a store word, the CRC value. -/
abbrev Word := BitVec 16

/-- A command word: one fixed format of 44 bits (R79). -/
abbrev CmdWord := BitVec 44

/-- The address spaces, all private to the block and its dispatcher (R15, R33): the two byte buffers with
cells 0 to 255, and the store of 16-bit words behind the dispatcher port. -/
inductive Space where
  | rxbuf
  | txbuf
  | store
  deriving DecidableEq, Repr

end Sys2Proof
end

