-- ==== Sys2Proof/Config.lean ====
section
/-! DEFINITION. The implementation's parameters (spec 00_scope.md R8, R9) and the values the spec leaves open.
A parameter to which R8 or R9 gives a value is a definition; one that R9 calls OPEN, and contents that R280 and
R281 call unspecified, are opaque constants with no body, so that no proof can see what they are. -/

namespace Sys2Proof.Config

/-- `CAP`: capacity of the frame buffer in bytes (R8). -/
@[simp] abbrev cap : Nat := 256

/-- `OVERHEAD`: address byte, function byte and two CRC bytes (R8). -/
@[simp] abbrev overhead : Nat := 4

/-- `CRC_INIT`: start value of the CRC register (R8, R101). -/
@[simp] abbrev crcInit : Word := 0xFFFF#16

/-- `CRC_POLY`: the reflected polynomial constant (R8, R100). -/
@[simp] abbrev crcPoly : Word := 0xA001#16

/-- `BCAST`: the broadcast address (R8). -/
@[simp] abbrev bcast : Byte := 0x00#8

/-- `ADDR_MIN`: smallest legal slave address (R8). -/
@[simp] abbrev addrMin : Nat := 1

/-- `ADDR_MAX`: largest legal slave address (R8). -/
@[simp] abbrev addrMax : Nat := 247

/-- `THR_FAST`: threshold in ticks for baud rates above `BAUD_SPLIT` (R8). -/
@[simp] abbrev thrFast : Nat := 35

/-- `BAUD_SPLIT`: the threshold is fixed above this baud rate (R8). -/
@[simp] abbrev baudSplit : Nat := 19200

/-- The dividend of the threshold formula: 3.5 characters of 11 bits at 20000 ticks per second (R9, R121).
PRESUMED by the spec itself, see assumption log 5. -/
@[simp] abbrev thrDividend : Nat := 770000

/-- `BAUD_MIN`: smallest baud rate CFG accepts (R9, R121). -/
@[simp] abbrev baudMin : Nat := 12

/-- `FC_RHR`: Read Holding Registers (R8). -/
@[simp] abbrev fcRhr : Byte := 0x03#8

/-- `FC_WSR`: Write Single Register (R8). -/
@[simp] abbrev fcWsr : Byte := 0x06#8

/-- `EXC_FLAG`: bit 7 of the function code marks an exception response (R8). -/
@[simp] abbrev excFlag : Byte := 0x80#8

/-- `EX_ILLEGAL_FUNCTION` (R8, R250). -/
@[simp] abbrev exIllegalFunction : Byte := 0x01#8

/-- `EX_ILLEGAL_DATA_ADDRESS` (R9, R250). -/
@[simp] abbrev exIllegalDataAddress : Byte := 0x02#8

/-- ILLEGAL_DATA_VALUE, the number of R250's table. -/
@[simp] abbrev exIllegalDataValue : Byte := 0x03#8

/-- `MIN_FRAME`: smallest frame the validator examines (R9, R161). -/
@[simp] abbrev minFrame : Nat := 4

/-- `MAX_TX_FRAME`: the transport's maximum frame size (R9, R211). -/
@[simp] abbrev maxTxFrame : Nat := 256

/-- `MAX_PAYLOAD` = `MAX_TX_FRAME - OVERHEAD` (R9, R211). -/
@[simp] abbrev maxPayload : Nat := 252

/-- `MAX_READ_COUNT`: largest register count of a 0x03 request (R9, R188). -/
@[simp] abbrev maxReadCount : Nat := 125

/-- `REG_BASE`: register number of store index 0 (R9, R56). -/
@[simp] abbrev regBase : Nat := 40001

/-- `BCAST_TX`: whether the response to a broadcast frame is handed to the transport; false (R9, R214). -/
@[simp] abbrev bcastTx : Bool := false

/-- `EXC_BAD_LENGTH`: OPEN (R9, R185): the exception code for a 0x03 or 0x06 request whose data is not 4 bytes.
Any byte; assumption log 8. -/
opaque excBadLength : Byte

/-- `NREGS` less one. `NREGS` is OPEN, 1 to 25536 (R9); assumption log 7. -/
opaque nregsPred : Fin 25536

/-- `NREGS`: number of 16-bit words in the store, 1 to 25536, otherwise open (R9). -/
def nregs : Nat := nregsPred.val + 1

/-- `STORE_INIT`: OPEN (R9, R36): contents of the store at power-up, by index; assumption log 7. -/
opaque storeInit : Nat → Word

/-- What a buffer cell that nothing has written since the last reset holds: unspecified (R23, R27, R280, R281).
The first argument counts the RST commands since power-up, so that each reset leaves fresh unspecified contents;
assumption log 2. -/
opaque unspecifiedByte : Nat → Space → Nat → Byte

/-- The number of an exception code that R250 tells a model to leave without one (the last three names, which nothing
in the design raises), by its position in the enumeration; assumption log 9. -/
opaque unraisedCode : Nat → Byte

end Sys2Proof.Config
end

