-- ==== Sys2Proof/Syntax.lean ====
section
/-! DEFINITION. The instructions: one constructor for each of the 30 rows of spec/opcode_table.json. The five
commands (30_encoding.md R78), the three wire operations (R72 to R74), the 22 micro-operations (R82).
A row's operands are those its rule names; an operand that the rule calls a register or a memory of the block
(LEN, RXBUF, ADDR, STORE, ...) is read from the state and is no argument here. -/

namespace Sys2Proof

/-- The format column of spec/opcode_table.json. -/
inductive Format where
  | cmd
  | frame
  | micro
  deriving DecidableEq, Repr

inductive Instr where
  /-- `RST`, reset (70_reset_and_hazards.md R280). -/
  | rst
  /-- `CFG addr, baud`, configure and (re)start (46_engine_commands.md R232). -/
  | cfg (addr : Byte) (baud : BitVec 32)
  /-- `RXB data`, byte received (42_receiver.md R142). -/
  | rxb (data : Byte)
  /-- `TCK`, tick (41_timer.md R125). -/
  | tck
  /-- `PRC`, process the completed frame (46_engine_commands.md R236). -/
  | prc
  /-- `RHR`, function code 0x03, with the request's data bytes (44_dispatcher_and_store.md R187). -/
  | rhr (data : List Byte)
  /-- `WSR`, function code 0x06, with the request's data bytes (R191). -/
  | wsr (data : List Byte)
  /-- `FCX`, any other function code, data not decoded (R184). -/
  | fcx (fc : Byte) (data : List Byte)
  /-- `CRC.INIT` (40_crc16.md R101). -/
  | crcInit
  /-- `CRC.BIT crc` (R100). -/
  | crcBit (crc : Word)
  /-- `CRC.BYTE crc, b` (R102). -/
  | crcByte (crc : Word) (b : Byte)
  /-- `CRC.BLK s`, the function `crc16` (R103). -/
  | crcBlk (bytes : List Byte)
  /-- `CRC.CHK f`, the residue test (R107). -/
  | crcChk (bytes : List Byte)
  /-- `CRC.APP s`, appending the CRC (R105). -/
  | crcApp (bytes : List Byte)
  /-- `TMR.CFG baud` (41_timer.md R121). -/
  | tmrCfg (baud : BitVec 32)
  /-- `TMR.LOAD` (R124). -/
  | tmrLoad
  /-- `TMR.DEC` (R126). -/
  | tmrDec
  /-- `RX.START b` (42_receiver.md R143). -/
  | rxStart (b : Byte)
  /-- `RX.APPEND b` (R144). -/
  | rxAppend (b : Byte)
  /-- `RX.DROP b` (R145, R146, R147). -/
  | rxDrop (b : Byte)
  /-- `RX.EXPIRE` (R148). -/
  | rxExpire
  /-- `VAL.LEN` (43_validator.md R161). -/
  | valLen
  /-- `VAL.CRC` (R162). -/
  | valCrc
  /-- `VAL.ADDR` (R164). -/
  | valAddr
  /-- `VAL.PDU` (R165). -/
  | valPdu
  /-- `DISCARD` (R166). -/
  | discard
  /-- `DSP fc, data` (44_dispatcher_and_store.md R182). -/
  | dsp (fc : Byte) (data : List Byte)
  /-- `BLD a, fc', payload` (45_response_builder.md R212). -/
  | bld (a : Byte) (fc : Byte) (payload : List Byte)
  /-- `SND a` (R214). -/
  | snd (a : Byte)
  /-- `REL` (R216). -/
  | rel
  deriving DecidableEq, Repr

/-- The format of an instruction's row in spec/opcode_table.json. -/
def Instr.format : Instr → Format
  | .rst | .cfg _ _ | .rxb _ | .tck | .prc => .cmd
  | .rhr _ | .wsr _ | .fcx _ _ => .frame
  | .crcInit | .crcBit _ | .crcByte _ _ | .crcBlk _ | .crcChk _ | .crcApp _ => .micro
  | .tmrCfg _ | .tmrLoad | .tmrDec => .micro
  | .rxStart _ | .rxAppend _ | .rxDrop _ | .rxExpire => .micro
  | .valLen | .valCrc | .valAddr | .valPdu | .discard => .micro
  | .dsp _ _ | .bld _ _ _ | .snd _ | .rel => .micro

end Sys2Proof
end

