-- ==== Sys2Proof/WellFormed.lean ====
section
/-! DEFINITION. Well-formed instructions: the checks the spec puts on operands. A request's data field is 0 to 252
bytes long (30_encoding.md R70, 44_dispatcher_and_store.md R180), and FCX is every function code that is neither
RHR's nor WSR's (30_encoding.md R74). The legal ranges of CFG's operands are no check here: a CFG outside them is a
command the block answers by refusing it (46_engine_commands.md R233). -/

namespace Sys2Proof

/-- The data field of a frame is at most 252 bytes (R70). -/
def dataFits (data : List Byte) : Bool := decide (data.length ≤ Config.maxPayload)

/-- The function code is neither RHR's nor WSR's (R74). -/
def unmatched (fc : Byte) : Bool := fc != Config.fcRhr && fc != Config.fcWsr

/-- The operand checks of each instruction. -/
def Instr.wf : Instr → Bool
  | .rhr data | .wsr data | .dsp _ data => dataFits data
  | .fcx fc data => unmatched fc && dataFits data
  | .rst | .cfg _ _ | .rxb _ | .tck | .prc => true
  | .crcInit | .crcBit _ | .crcByte _ _ | .crcBlk _ | .crcChk _ | .crcApp _ => true
  | .tmrCfg _ | .tmrLoad | .tmrDec => true
  | .rxStart _ | .rxAppend _ | .rxDrop _ | .rxExpire => true
  | .valLen | .valCrc | .valAddr | .valPdu | .discard => true
  | .bld _ _ _ | .snd _ | .rel => true

end Sys2Proof
end

