-- ==== Sys2Proof/Decode.lean ====
section
/-! DEFINITION. The decoder and the encoder (spec 30_encoding.md). Two things are encoded: a command, as a 44-bit
word (R79), and a request on the wire, as a PDU: the function byte and the data bytes (R70, R72 to R74). A
micro-operation has no bit pattern (R82). -/

namespace Sys2Proof

/-- What the decoder is given: a command word at the command port, or the PDU of a frame the validator passed. -/
inductive Code where
  | cmd (w : CmdWord)
  | pdu (bytes : List Byte)
  deriving DecidableEq, Repr

/-- Why a code stands for no instruction. -/
inductive DecodeError where
  /-- A command word whose `op` is 5 to 15 (R80). -/
  | reservedOp (op : BitVec 4)
  /-- A PDU has a function byte (R70). -/
  | emptyPdu
  /-- A PDU's data is at most 252 bytes (R70). -/
  | pduTooLong (n : Nat)
  deriving DecidableEq, Repr

/-- Field `op`, bits 43:40 (R79). -/
def cmdOp (w : CmdWord) : BitVec 4 := w.extractLsb' 40 4

/-- Field `b`, bits 39:32 (R79). -/
def cmdB (w : CmdWord) : Byte := w.extractLsb' 32 8

/-- Field `w`, bits 31:0 (R79). -/
def cmdW (w : CmdWord) : BitVec 32 := w.extractLsb' 0 32

/-- A decoder of command words looks at `op` alone (R85); bits of fields a command does not use are ignored (R79). -/
def decodeCmd (w : CmdWord) : Except DecodeError Instr :=
  match (cmdOp w).toNat with
  | 0 => .ok .rst
  | 1 => .ok (.cfg (cmdB w) (cmdW w))
  | 2 => .ok (.rxb (cmdB w))
  | 3 => .ok .tck
  | 4 => .ok .prc
  | _ => .error (.reservedOp (cmdOp w))

/-- A decoder of request frames looks at the function byte alone: 0x03 is RHR, 0x06 is WSR, anything else is FCX
(R85). The data is taken as it stands, of whatever length (R185 gives a wrong length its meaning). -/
def decodePdu : List Byte → Except DecodeError Instr
  | [] => .error .emptyPdu
  | fc :: data =>
    if data.length ≤ Config.maxPayload then
      if fc = Config.fcRhr then .ok (.rhr data)
      else if fc = Config.fcWsr then .ok (.wsr data)
      else .ok (.fcx fc data)
    else .error (.pduTooLong data.length)

/-- The whole decoder: total on any code, rejecting by name. -/
def decode : Code → Except DecodeError Instr
  | .cmd w => decodeCmd w
  | .pdu bytes => decodePdu bytes

/-- A command word from its three fields (R79). -/
def mkCmd (op : BitVec 4) (b : Byte) (w : BitVec 32) : CmdWord := op ++ (b ++ w)

/-- The code of an instruction; an assembler emits zeros in ignored bits (R79). `none` for a micro-operation (R82). -/
def encode : Instr → Option Code
  | .rst => some (.cmd (mkCmd 0 0 0))
  | .cfg addr baud => some (.cmd (mkCmd 1 addr baud))
  | .rxb data => some (.cmd (mkCmd 2 data 0))
  | .tck => some (.cmd (mkCmd 3 0 0))
  | .prc => some (.cmd (mkCmd 4 0 0))
  | .rhr data => some (.pdu (Config.fcRhr :: data))
  | .wsr data => some (.pdu (Config.fcWsr :: data))
  | .fcx fc data => some (.pdu (fc :: data))
  | .crcInit | .crcBit _ | .crcByte _ _ | .crcBlk _ | .crcChk _ | .crcApp _ => none
  | .tmrCfg _ | .tmrLoad | .tmrDec => none
  | .rxStart _ | .rxAppend _ | .rxDrop _ | .rxExpire => none
  | .valLen | .valCrc | .valAddr | .valPdu | .discard => none
  | .dsp _ _ | .bld _ _ _ | .snd _ | .rel => none

/-- Byte `k` of a number, byte 0 the least significant. -/
def byteOfNat (w k : Nat) : Byte := BitVec.ofNat 8 (w >>> (8 * k))

/-- The PDU of a request with four data bytes, laid out in a number with the function byte lowest. -/
def pduOfNat (w : Nat) : List Byte :=
  [byteOfNat w 0, byteOfNat w 1, byteOfNat w 2, byteOfNat w 3, byteOfNat w 4]

/-- The code that an opcode-table row of `nbits` bits stands for. A row of at most 40 bits is a FRAME row: its bits
are the function byte and then the data bytes, all four of them, those above `nbits` zero (R72, R73, R85); a wider one
is a CMD row of 44 bits (R79). A row of no bits is a micro-operation's and has no code (R82). Assumption log 11. -/
def tableCode (nbits w : Nat) : Option Code :=
  if nbits = 0 then none
  else if nbits ≤ 40 then some (.pdu (pduOfNat w))
  else if w < 2 ^ 44 then some (.cmd (BitVec.ofNat 44 w))
  else none

/-- The instruction the decoder reads from an instruction whose bits are `w`, numbered as spec/opcode_table.json
numbers them. -/
def decodeTableWord (nbits w : Nat) : Option Instr :=
  match tableCode nbits w with
  | none => none
  | some c => (decode c).toOption

end Sys2Proof
end

