-- ==== Sys2Proof/Machine/State.lean ====
section
/-! DEFINITION. The state of the block (spec 10_state.md R20), its outputs (R40 to R43), and the reasons a step can
stop. Everything is plain data. -/

namespace Sys2Proof.Machine

/-- `STATE`, the receiver state, the only sequencing state of the block (R21). The numeric codes 0 to 3 of R20 are
visible nowhere, so it is an enumeration. -/
inductive RxState where
  | init
  | idle
  | receiving
  | complete
  deriving DecidableEq, Repr

/-- The status reported to whoever issued the last command (R43). -/
inductive CmdStatus where
  | accepted
  /-- `CMD_REFUSED`: a refused CFG (R233) or a reserved command code (R80). -/
  | refused
  deriving DecidableEq, Repr

/-- What a check of the validator answers (43_validator.md R160). -/
inductive Verdict where
  | pass
  | discard
  deriving DecidableEq, Repr

/-- The Exception Code enumeration (60_exceptions.md R250). -/
inductive ExcCode where
  | none
  | illegalFunction
  | illegalDataAddress
  | illegalDataValue
  | slaveDeviceFailure
  | acknowledge
  | slaveBusy
  | memoryParityError
  | gatewayPathFailed
  | gatewayTargetFailed
  deriving DecidableEq, Repr

/-- A byte buffer's contents: the cells written since the last reset, as (address, byte) pairs with addresses strictly
rising. A cell not listed has no value of its own: what it reads as is unspecified (R23, R27). -/
abbrev Memory := List Host.Cell

/-- How a handler ends: with a payload and the new store, or by raising a code (44_dispatcher_and_store.md R182). -/
inductive Handled where
  | success (payload : List Byte) (store : List Word)
  | exception (code : Byte)
  deriving DecidableEq, Repr

/-- What a handler answers: a success payload or an exception code (44_dispatcher_and_store.md R180). -/
inductive HandlerResult where
  | success (payload : List Byte)
  | exception (code : Byte)
  deriving DecidableEq, Repr

/-- The address, function code and data of a frame (43_validator.md R165). -/
structure Pdu where
  addr : Byte
  fc : Byte
  data : List Byte
  deriving DecidableEq, Repr

/-- The function code and payload that DSP answers (44_dispatcher_and_store.md R182). -/
structure Reply where
  fc : Byte
  payload : List Byte
  deriving DecidableEq, Repr

/-- THE MODEL'S OWN: where a micro-operation or wire operation executed alone leaves the result its rule names
(30_encoding.md R82, column `result`). It is no architectural state (R20, R29): no command reads it or writes it.
Assumption log 4. -/
structure Latch where
  /-- result of CRC.INIT, CRC.BIT, CRC.BYTE, CRC.BLK -/
  crc : Word
  /-- result of CRC.CHK -/
  chk : Bool
  /-- result of CRC.APP -/
  seq : List Byte
  /-- the event TMR.DEC raises or does not -/
  expiry : Bool
  /-- result of VAL.LEN, VAL.CRC, VAL.ADDR -/
  verdict : Verdict
  /-- result of VAL.PDU -/
  pdu : Pdu
  /-- result of RHR, WSR, FCX -/
  handled : HandlerResult
  /-- result of DSP -/
  reply : Reply
  deriving DecidableEq, Repr

/-- The latches at power-up. -/
def Latch.blank : Latch :=
  { crc := 0, chk := false, seq := [], expiry := false, verdict := .pass,
    pdu := { addr := 0, fc := 0, data := [] }, handled := .success [], reply := { fc := 0, payload := [] } }

structure State where
  /-- `STATE` (R21) -/
  rxState : RxState
  /-- `ADDR`, 8 bits (R26) -/
  addr : Byte
  /-- `THR`, 16 bits, as a natural (R10, R25) -/
  thr : Nat
  /-- `LEN`, 9 bits, as a natural (R10, R22) -/
  len : Nat
  /-- `CNT`, 16 bits, as a natural (R10, R24) -/
  cnt : Nat
  /-- `TXLEN`, 9 bits, as a natural (R10, R28) -/
  txlen : Nat
  /-- `RXBUF`, 256 byte cells (R23) -/
  rxbuf : Memory
  /-- `TXBUF`, 256 byte cells (R27) -/
  txbuf : Memory
  /-- `STORE`, NREGS 16-bit words by index; NREGS is the list's length (R36) -/
  store : List Word
  /-- `SENT`, what was handed to the transport, oldest first (R41) -/
  sent : List (List Byte)
  /-- the status reported for the last command (R43) -/
  status : CmdStatus
  /-- THE MODEL'S OWN: the commands the environment has issued and the block has not yet run, oldest first (R44,
  R59); assumption log 1. -/
  inbox : List CmdWord
  /-- THE MODEL'S OWN: how many RST commands have run, so that each leaves fresh unspecified buffer contents;
  assumption log 2. -/
  resets : Nat
  /-- THE MODEL'S OWN: the results of operations executed alone; assumption log 4. -/
  latch : Latch
  deriving DecidableEq, Repr

/-- Why the machine stops. No command raises a fault: the block has no fault outcome for any input (60_exceptions.md
R255, 46_engine_commands.md R240). -/
inductive Fault where
  /-- An access to a cell that does not exist (00_scope.md R15, 20_memory.md R65). Raised by the micro-operation
  RX.APPEND executed alone with LEN at 256 or above, outside its precondition. SAFE: the machine stops where the spec
  gives no effect. -/
  | noSuchCell (space : Space) (index : Nat)
  deriving DecidableEq, Repr

/-- Why an instruction has no meaning here. -/
inductive Refusal where
  /-- Raised by an arm of exec whose instruction has no meaning yet; no arm is such. SAFE: the machine stops. -/
  | notModelled (mnemonic : String)
  deriving DecidableEq, Repr

/-- What executing an instruction, or a step, answers. -/
abbrev Result := Host.Outcome State Fault Refusal

/-- The machine at power-up (70_reset_and_hazards.md R281): the state RST gives (R280), with STORE = STORE_INIT and SENT
empty. The values other than STATE = INIT are the spec's choice (decision D8); those of the model's own fields are
DESIGN CHOICE, assumption logs 1, 2, 3, 4. -/
def State.reset : State :=
  { rxState := .init
    addr := 0
    thr := 0
    len := 0
    cnt := 0
    txlen := 0
    rxbuf := []
    txbuf := []
    store := (List.range Config.nregs).map Config.storeInit
    sent := []
    status := .accepted
    inbox := []
    resets := 0
    latch := Latch.blank }

end Sys2Proof.Machine
end

