-- ==== Sys2Proof/Machine/Flags.lean ====
section
/-! DEFINITION. The block's three conditions (spec 10_state.md R31). None is stored apart from the registers. -/

namespace Sys2Proof.Machine

/-- `FRAME_READY`, a level: a completed frame waits for the consumer (R31, R40). -/
def State.frameReady (s : State) : Bool := s.rxState = .complete

/-- `TIMER_ARMED`, a level: ticks count down (R31). -/
def State.timerArmed (s : State) : Bool := s.cnt ≠ 0

/-- `expiry`, an event: a decrement moved the count from 1 to 0 (R31, R126). -/
def expiryOf (cntBefore : Nat) : Bool := cntBefore = 1

end Sys2Proof.Machine
end

