-- ==== Sys2Proof/Machine/Operands.lean ====
section
/-! DEFINITION. Operand forms: the assembly of 16-bit fields from bytes and their splitting (spec 00_scope.md R13,
20_memory.md R51, R53), the resolution of a wire address to a store index (R56), and the numbers of the exception
codes (60_exceptions.md R250). -/

namespace Sys2Proof.Machine

/-- `lo8(w) = w[7:0]` (R13). -/
def lo8 (w : Word) : Byte := w.extractLsb' 0 8

/-- `hi8(w) = w[15:8]` (R13). -/
def hi8 (w : Word) : Byte := w.extractLsb' 8 8

/-- `be16(h, l) = {h, l}`, a big-endian field from its first byte `h` and second byte `l` (R13, R51). -/
def be16 (h l : Byte) : Word := h ++ l

/-- A word as it goes on the wire, high byte first (R51, R197). -/
def wordBytes (w : Word) : List Byte := [hi8 w, lo8 w]

/-- `resolve(w, n)`: the store index of the `n` registers at wire address `w`, when all lie in the window; register
number `w + 1` without wrap (R56). -/
def resolve (nregs w n : Nat) : Option Nat :=
  if Config.regBase ≤ w + 1 ∧ w + 1 + n ≤ Config.regBase + nregs then some (w + 1 - Config.regBase) else none

/-- The byte an exception code has on the wire (R250): none for NONE, which is never sent; the numbers of R250's table
(PRESUMED by the spec itself but for 0x01, assumption log 9); parameters for the last three names, which R250 tells a
model to leave without a number. -/
def excByte : ExcCode → Option Byte
  | .none => none
  | .illegalFunction => some Config.exIllegalFunction
  | .illegalDataAddress => some Config.exIllegalDataAddress
  | .illegalDataValue => some Config.exIllegalDataValue
  | .slaveDeviceFailure => some 0x04#8
  | .acknowledge => some 0x05#8
  | .slaveBusy => some 0x06#8
  | .memoryParityError => some (Config.unraisedCode 7)
  | .gatewayPathFailed => some (Config.unraisedCode 8)
  | .gatewayTargetFailed => some (Config.unraisedCode 9)

end Sys2Proof.Machine
end

