-- ==== Sys2Proof/Machine/Ops.lean ====
section
/-! DEFINITION. The named operations over the memories and the registers, the raising and answering of an exception
(spec 60_exceptions.md R254) and the release that ends every frame (R260), and the taking of a command from the
port. -/

namespace Sys2Proof.Machine

/-! ### Byte buffers (00_scope.md R15, 20_memory.md R50, R55) -/

/-- The byte last written to cell `i`, if any has been since the last reset. -/
def Memory.read? : Memory → Nat → Option Byte
  | [], _ => none
  | (k, v) :: m, i => if k = i then some v else Memory.read? m i

/-- One byte written; addresses stay strictly rising. -/
def Memory.write : Memory → Nat → Byte → Memory
  | [], i, b => [(i, b)]
  | (k, v) :: m, i, b =>
    if i < k then (i, b) :: (k, v) :: m
    else if i = k then (i, b) :: m
    else (k, v) :: Memory.write m i b

/-- `MemWrite(space, i, n, v)`: consecutive cells written from `i` upward. -/
def Memory.writeBytes : Memory → Nat → List Byte → Memory
  | m, _, [] => m
  | m, i, b :: bs => Memory.writeBytes (Memory.write m i b) (i + 1) bs

/-- The canonical form: addresses strictly rising. -/
def Memory.rising : Memory → Bool
  | [] => true
  | [_] => true
  | c :: d :: m => decide (c.1 < d.1) && Memory.rising (d :: m)

/-- A buffer's contents are canonical and lie in its 256 cells (R33, R58). An unlisted cell has no value of its own, so
no entry can equal one. -/
def Memory.wf (m : Memory) : Bool := Memory.rising m && m.all (fun c => decide (c.1 < Config.cap))

/-- What cell `i` of a buffer reads as: the byte written since the last reset, else unspecified (R23, R27). -/
def cellValue (resets : Nat) (space : Space) (m : Memory) (i : Nat) : Byte :=
  (Memory.read? m i).getD (Config.unspecifiedByte resets space i)

/-- `RXBUF[i]` (R14). -/
def State.rxByte (s : State) (i : Nat) : Byte := cellValue s.resets .rxbuf s.rxbuf i

/-- `TXBUF[i]` (R14). -/
def State.txByte (s : State) (i : Nat) : Byte := cellValue s.resets .txbuf s.txbuf i

/-- `RXBUF[a..b)`, in rising index order, empty when `a >= b` (R14). -/
def State.rxSlice (s : State) (a b : Nat) : List Byte := (List.range' a (b - a)).map s.rxByte

/-- `TXBUF[a..b)` (R14). -/
def State.txSlice (s : State) (a b : Nat) : List Byte := (List.range' a (b - a)).map s.txByte

/-- The frame received so far, `RXBUF[0..LEN)` (R23). -/
def State.rxFrame (s : State) : List Byte := s.rxSlice 0 s.len

/-- The last response built, `TXBUF[0..TXLEN)` (R27). -/
def State.txFrame (s : State) : List Byte := s.txSlice 0 s.txlen

/-! ### The store (44_dispatcher_and_store.md R186) -/

/-- `MemRead(STORE, i, n)`: the words at indexes `i` to `i + n - 1`, all inside the store where `resolve` gave `i`. -/
def storeRead (store : List Word) (i n : Nat) : List Word := (store.drop i).take n

/-- `set(store, i, v)` (R186). -/
def storeWrite (store : List Word) (i : Nat) (v : Word) : List Word := store.set i v

/-! ### The registers -/

/-- `TMR.LOAD`: the count becomes the threshold (41_timer.md R124). -/
def State.loadTimer (s : State) : State := { s with cnt := s.thr }

/-- `RXBUF[LEN] <- b; LEN <- LEN + 1` (20_memory.md R50). -/
def State.storeByte (s : State) (b : Byte) : State :=
  { s with rxbuf := Memory.write s.rxbuf s.len b, len := s.len + 1 }

/-- The state the receiver goes to when the timer expires (42_receiver.md R148). -/
def RxState.onExpiry : RxState → RxState
  | .init => .idle
  | .receiving => .complete
  | .idle => .idle
  | .complete => .complete

/-- The receiver's answer to the expiry event (R148). -/
def State.expire (s : State) : State := { s with rxState := s.rxState.onExpiry }

/-- The two writes that end a frame, answered or discarded: `LEN <- 0; STATE <- IDLE` (43_validator.md R166,
45_response_builder.md R216). Nothing is restored, because nothing was saved (60_exceptions.md R260). -/
def State.release (s : State) : State := { s with len := 0, rxState := .idle }

/-- `Send(bytes)`: appended to SENT (00_scope.md R16, 10_state.md R41). -/
def State.sendBytes (s : State) (bytes : List Byte) : State := { s with sent := s.sent ++ [bytes] }

/-- `STORE <- store'` (46_engine_commands.md R236). -/
def State.withStore (s : State) (store : List Word) : State := { s with store := store }

/-- The commands left at the port. -/
def State.withInbox (s : State) (rest : List CmdWord) : State := { s with inbox := rest }

/-- The command has been carried out. -/
def State.accept (s : State) : State := { s with status := .accepted }

/-- The command is refused: `CMD_REFUSED` is reported and nothing else changes (10_state.md R43). -/
def State.refuse (s : State) : State := { s with status := .refused }

/-! ### Exceptions (60_exceptions.md R254, 44_dispatcher_and_store.md R183) -/

/-- `raise code`: the handler stops; it has touched no word (R254). -/
def raise (code : Byte) : Handled := .exception code

/-- The function byte of an exception response: bit 7 set (R77, R183). -/
def excFunction (fc : Byte) : Byte := fc ||| Config.excFlag

/-- Taking an exception: the response's function byte is the request's with bit 7 set, its payload the one code byte,
the store the one the handler was given (R183, R254). No register saves anything: state saved, none. -/
def takeException (fc code : Byte) (store : List Word) : Byte × List Byte × List Word :=
  (excFunction fc, [code], store)

/-- What DSP answers, given how the handler ended (R182). -/
def respond (fc : Byte) (store : List Word) : Handled → Byte × List Byte × List Word
  | .success payload store' => (fc, payload, store')
  | .exception code => takeException fc code store

/-- The handler's answer without the store. -/
def Handled.result : Handled → HandlerResult
  | .success payload _ => .success payload
  | .exception code => .exception code

/-- The store after the handler: unchanged by an exception (R194). -/
def Handled.storeAfter (store : List Word) : Handled → List Word
  | .success _ store' => store'
  | .exception _ => store

/-! ### The command port (30_encoding.md R78, 20_memory.md R59) -/

/-- The oldest command the environment has issued, and the state without it. -/
def State.takeCommand (s : State) : Option (CmdWord × State) :=
  match s.inbox with
  | [] => none
  | w :: rest => some (w, s.withInbox rest)

end Sys2Proof.Machine
end

