-- ==== Sys2Proof/Machine/Crc.lean ====
section
/-! DEFINITION. The CRC-16 engine (spec 40_crc16.md): pure functions, no state (R29), and the six micro-operations,
whose results go to the latches. The bit procedure is the spec's [from general knowledge], assumption log 12. -/

namespace Sys2Proof.Machine

/-- `CRC.BIT`: one shift of the register to the right (R100). -/
def crcBit (crc : Word) : Word := if crc.getLsbD 0 then (crc >>> 1) ^^^ Config.crcPoly else crc >>> 1

/-- `CRC.BYTE`: the byte into the low half, then exactly eight shifts (R102). -/
def crcByte (crc : Word) (b : Byte) : Word :=
  crcBit (crcBit (crcBit (crcBit (crcBit (crcBit (crcBit (crcBit (crc ^^^ b.zeroExtend 16))))))))

/-- `crc16`, CRC.BLK: the bytes in index order from the start value, no final exclusive or (R103). -/
def crc16 (bytes : List Byte) : Word := bytes.foldl crcByte Config.crcInit

/-- `CRC.APP`: the CRC appended, low byte first (R105, 20_memory.md R52). -/
def crcAppend (bytes : List Byte) : List Byte := bytes ++ [lo8 (crc16 bytes), hi8 (crc16 bytes)]

/-- `CRC.CHK`: the residue over a whole frame is zero (R107). -/
def crcCheck (frame : List Byte) : Bool := crc16 frame = 0

/-- CRC.INIT (R101). -/
def execCrcInit (s : State) : Result := .next { s with latch := { s.latch with crc := Config.crcInit } }

/-- CRC.BIT (R100). -/
def execCrcBit (crc : Word) (s : State) : Result := .next { s with latch := { s.latch with crc := crcBit crc } }

/-- CRC.BYTE (R102). -/
def execCrcByte (crc : Word) (b : Byte) (s : State) : Result :=
  .next { s with latch := { s.latch with crc := crcByte crc b } }

/-- CRC.BLK (R103). -/
def execCrcBlk (bytes : List Byte) (s : State) : Result :=
  .next { s with latch := { s.latch with crc := crc16 bytes } }

/-- CRC.CHK (R107). -/
def execCrcChk (bytes : List Byte) (s : State) : Result :=
  .next { s with latch := { s.latch with chk := crcCheck bytes } }

/-- CRC.APP (R105). -/
def execCrcApp (bytes : List Byte) (s : State) : Result :=
  .next { s with latch := { s.latch with seq := crcAppend bytes } }

end Sys2Proof.Machine
end

