-- ==== Sys2Proof/Machine/Builder.lean ====
section
/-! DEFINITION. The response builder and the buffer manager (spec 45_response_builder.md): BLD, SND, REL. -/

namespace Sys2Proof.Machine

/-- The payload cut to the transport's limit, without any sign (R211). -/
def truncate (payload : List Byte) : List Byte := payload.take Config.maxPayload

/-- The response frame: address, function code, payload, CRC low byte first (R212). -/
def response (a fc : Byte) (payload : List Byte) : List Byte := crcAppend (a :: fc :: truncate payload)

/-- `BLD`: the response laid down in TXBUF from cell 0; cells above keep what they held (R212). -/
def State.build (s : State) (a fc : Byte) (payload : List Byte) : State :=
  { s with
    txbuf := Memory.writeBytes s.txbuf 0 (response a fc payload)
    txlen := (truncate payload).length + Config.overhead }

/-- `SND`: the response handed to the transport, unless the request was a broadcast and BCAST_TX is false (R214). -/
def State.transmit (bcastTx : Bool) (s : State) (a : Byte) : State :=
  if a ≠ Config.bcast ∨ bcastTx then s.sendBytes s.txFrame else s

/-- BLD (R212). -/
def execBld (a fc : Byte) (payload : List Byte) (s : State) : Result := .next (s.build a fc payload)

/-- SND (R214). -/
def execSnd (a : Byte) (s : State) : Result := .next (State.transmit Config.bcastTx s a)

/-- REL (R216). -/
def execRel (s : State) : Result := .next s.release

end Sys2Proof.Machine
end

