-- ==== Sys2Proof/Machine/Dispatcher.lean ====
section
/-! DEFINITION. The dispatcher port, its handlers and the register store (spec 44_dispatcher_and_store.md): DSP, RHR,
WSR, FCX. `excBadLength` is the parameter EXC_BAD_LENGTH (R185); the meanings give it Config's open value. -/

namespace Sys2Proof.Machine

/-- The function at the dispatcher port (R180): function code, data and store to function code, payload and store. -/
abbrev DispatchFn := Byte → List Byte → List Word → Byte × List Byte × List Word

/-- The payload of a read: the byte count, then each word high byte first, in ascending order (30_encoding.md R75). -/
def readPayload (words : List Word) : List Byte :=
  BitVec.ofNat 8 (2 * words.length) :: words.flatMap wordBytes

/-- `RHR(data, store)` (R187): exactly four data bytes (R185), a count of 1 to 125 and a range wholly inside the window
(R188), then the read; the store is never changed. -/
def rhr (excBadLength : Byte) (data : List Byte) (store : List Word) : Handled :=
  match data with
  | [d0, d1, d2, d3] =>
    let start := (be16 d0 d1).toNat
    let count := (be16 d2 d3).toNat
    if count = 0 ∨ count > Config.maxReadCount then raise Config.exIllegalDataAddress
    else
      match resolve store.length start count with
      | none => raise Config.exIllegalDataAddress
      | some index => .success (readPayload (storeRead store index count)) store
  | _ => raise excBadLength

/-- `WSR(data, store)` (R191): exactly four data bytes (R185), an address inside the window (R192), then the write and
the echo (R193). -/
def wsr (excBadLength : Byte) (data : List Byte) (store : List Word) : Handled :=
  match data with
  | [d0, d1, d2, d3] =>
    match resolve store.length (be16 d0 d1).toNat 1 with
    | none => raise Config.exIllegalDataAddress
    | some index => .success data (storeWrite store index (be16 d2 d3))
  | _ => raise excBadLength

/-- `FCX`: the default arm; the data is not examined (R184). -/
def fcx (_fc : Byte) (_data : List Byte) : Handled := raise Config.exIllegalFunction

/-- The handler of a function code: an exhaustive mapping with its default arm (R182, 20_memory.md R63). -/
def handler (excBadLength : Byte) (fc : Byte) (data : List Byte) (store : List Word) : Handled :=
  if fc = Config.fcRhr then rhr excBadLength data store
  else if fc = Config.fcWsr then wsr excBadLength data store
  else fcx fc data

/-- `DSP(fc, data, store)`: the reference dispatcher (R182). -/
def dsp (excBadLength : Byte) : DispatchFn := fun fc data store => respond fc store (handler excBadLength fc data store)

/-- A handler's answer left in its latch, and the store it returns. -/
def State.latchHandled (s : State) (h : Handled) : State :=
  { s with store := h.storeAfter s.store, latch := { s.latch with handled := h.result } }

/-- RHR (R187). -/
def execRhr (data : List Byte) (s : State) : Result := .next (s.latchHandled (rhr Config.excBadLength data s.store))

/-- WSR (R191). -/
def execWsr (data : List Byte) (s : State) : Result := .next (s.latchHandled (wsr Config.excBadLength data s.store))

/-- FCX (R184). -/
def execFcx (fc : Byte) (data : List Byte) (s : State) : Result := .next (s.latchHandled (fcx fc data))

/-- DSP (R182): the store returned is written, the function code and payload left in their latch. -/
def execDsp (fc : Byte) (data : List Byte) (s : State) : Result :=
  let r := dsp Config.excBadLength fc data s.store
  .next { s with store := r.2.2, latch := { s.latch with reply := { fc := r.1, payload := r.2.1 } } }

end Sys2Proof.Machine
end

