-- ==== Sys2Proof/Machine/Receiver.lean ====
section
/-! DEFINITION. The frame receiver (spec 42_receiver.md): the command RXB and the micro-operations RX.START, RX.APPEND,
RX.DROP and RX.EXPIRE. -/

namespace Sys2Proof.Machine

/-- `RX.START`: buffer cleared, byte appended, timer armed, STATE to RECEIVING (R143). -/
def rxStart (b : Byte) (s : State) : State :=
  { (State.storeByte { s with len := 0 } b).loadTimer with rxState := .receiving }

/-- `RX.APPEND`: byte appended, timer reloaded (R144). -/
def rxAppend (b : Byte) (s : State) : State := (s.storeByte b).loadTimer

/-- `RX.DROP`: the byte is discarded and nothing changes, the timer included (R145, R146, R147). -/
def rxDrop (_b : Byte) (s : State) : State := s

/-- `RXB`: what becomes of a byte, by receiver state and room (R142). -/
def receive (b : Byte) (s : State) : State :=
  match s.rxState with
  | .init => rxDrop b s
  | .idle => rxStart b s
  | .receiving => if s.len < Config.cap then rxAppend b s else rxDrop b s
  | .complete => rxDrop b s

/-- RXB (R142). -/
def execRxb (data : Byte) (s : State) : Result := .next (receive data s).accept

/-- RX.START (R143). Executed alone outside STATE = IDLE it does the same writes: assumption log 6. -/
def execRxStart (b : Byte) (s : State) : Result := .next (rxStart b s)

/-- RX.APPEND (R144). Executed alone outside STATE = RECEIVING it does the same writes: assumption log 6. With LEN at 256
or above there is no cell to write (R65). -/
def execRxAppend (b : Byte) (s : State) : Result :=
  if s.len < Config.cap then .next (rxAppend b s) else .fault (.noSuchCell .rxbuf s.len)

/-- RX.DROP (R145, R146, R147). -/
def execRxDrop (b : Byte) (s : State) : Result := .next (rxDrop b s)

/-- RX.EXPIRE (R148), all four arms. -/
def execRxExpire (s : State) : Result := .next s.expire

end Sys2Proof.Machine
end

