-- ==== Sys2Proof/Machine/Timer.lean ====
section
/-! DEFINITION. The inactivity timer (spec 41_timer.md): the command TCK and the micro-operations TMR.CFG, TMR.LOAD and
TMR.DEC. -/

namespace Sys2Proof.Machine

/-- `thr_of_baud`: the threshold in ticks (R120, R121); the formula at and below 19200 is the spec's choice D6,
assumption log 5. -/
def thrOfBaud (baud : Nat) : Nat := if Config.baudSplit < baud then Config.thrFast else Config.thrDividend / baud

/-- `TMR.CFG`: the threshold, or none where the baud rate is refused (R121). -/
def tmrCfg (baud : Nat) : Option Nat := if baud < Config.baudMin then none else some (thrOfBaud baud)

/-- One tick of an armed timer and the receiver's answer to an expiry; an inert timer does nothing (R125, R126). -/
def tick (s : State) : State :=
  if s.cnt = 0 then s
  else if expiryOf s.cnt then State.expire { s with cnt := s.cnt - 1 }
  else { s with cnt := s.cnt - 1 }

/-- TCK (R125). -/
def execTck (s : State) : Result := .next (tick s).accept

/-- TMR.CFG (R121): THR written, or the baud rate refused and nothing else changed. -/
def execTmrCfg (baud : BitVec 32) (s : State) : Result :=
  match tmrCfg baud.toNat with
  | none => .next s.refuse
  | some thr => .next { s with thr := thr }

/-- TMR.LOAD (R124). -/
def execTmrLoad (s : State) : Result := .next s.loadTimer

/-- TMR.DEC (R126). Executed alone with CNT = 0, outside its precondition, the count stays clamped at the sentinel 0 and
no expiry is raised: DEDUCED, assumption log 6. -/
def execTmrDec (s : State) : Result :=
  .next { s with cnt := s.cnt - 1, latch := { s.latch with expiry := expiryOf s.cnt } }

end Sys2Proof.Machine
end

