-- ==== Sys2Proof/Machine/Validator.lean ====
section
/-! DEFINITION. The frame validator (spec 43_validator.md): VAL.LEN, VAL.CRC, VAL.ADDR, VAL.PDU and DISCARD. -/

namespace Sys2Proof.Machine

/-- `VAL.LEN` (R161). -/
def valLen (len : Nat) : Verdict := if len < Config.minFrame then .discard else .pass

/-- `VAL.CRC` (R162). -/
def valCrc (frame : List Byte) : Verdict := if crcCheck frame then .pass else .discard

/-- `VAL.ADDR`: the slave's own address or the broadcast address (R164). -/
def valAddr (a own : Byte) : Verdict := if a = own ∨ a = Config.bcast then .pass else .discard

/-- `VAL.PDU`: address, function code, and the data at indexes 2 to LEN-3 (R165). -/
def valPdu (s : State) : Pdu := { addr := s.rxByte 0, fc := s.rxByte 1, data := s.rxSlice 2 (s.len - 2) }

/-- `validate(RXBUF, LEN, ADDR)`: the three checks in order and the extraction; `none` means discard (R160, R167). -/
def validate (s : State) : Option Pdu :=
  if valLen s.len = .discard then none
  else if valCrc s.rxFrame = .discard then none
  else if valAddr (s.rxByte 0) s.addr = .discard then none
  else some (valPdu s)

/-- The verdict of a check left in its latch. -/
def State.latchVerdict (s : State) (v : Verdict) : State := { s with latch := { s.latch with verdict := v } }

/-- VAL.LEN (R161). -/
def execValLen (s : State) : Result := .next (s.latchVerdict (valLen s.len))

/-- VAL.CRC (R162). -/
def execValCrc (s : State) : Result := .next (s.latchVerdict (valCrc s.rxFrame))

/-- VAL.ADDR (R164). -/
def execValAddr (s : State) : Result := .next (s.latchVerdict (valAddr (s.rxByte 0) s.addr))

/-- VAL.PDU (R165). -/
def execValPdu (s : State) : Result := .next { s with latch := { s.latch with pdu := valPdu s } }

/-- DISCARD (R166). -/
def execDiscard (s : State) : Result := .next s.release

end Sys2Proof.Machine
end

