-- ==== Sys2Proof/Machine/Engine.lean ====
section
/-! DEFINITION. The commands RST (spec 70_reset_and_hazards.md R280), CFG (46_engine_commands.md R232) and PRC (R236). -/

namespace Sys2Proof.Machine

/-- `RST`: the reset values; the buffers' contents become unspecified, STORE and SENT are not touched (R280, R281). -/
def resetCore (s : State) : State :=
  { s with
    rxState := .init
    addr := 0
    thr := 0
    len := 0
    cnt := 0
    txlen := 0
    rxbuf := []
    txbuf := []
    resets := s.resets + 1 }

/-- CFG's legality: an address in 1 to 247 and a baud rate TMR.CFG accepts (R232, R233). -/
def cfgThreshold (addr : Byte) (baud : BitVec 32) : Option Nat :=
  if addr.toNat < Config.addrMin ∨ addr.toNat > Config.addrMax then none else tmrCfg baud.toNat

/-- `CFG` accepted: ADDR and THR written, the receiver restarted, the power-up wait begun (R232). -/
def configure (addr : Byte) (thr : Nat) (s : State) : State :=
  State.loadTimer { s with addr := addr, thr := thr, len := 0, rxState := .init }

/-- `PRC` with any function at the dispatcher port and either value of BCAST_TX (R180, R181, R236): nothing outside
COMPLETE (R237); else the frame is validated, and discarded, or dispatched, answered and released. -/
def process (dispatch : DispatchFn) (bcastTx : Bool) (s : State) : State :=
  if s.rxState = .complete then
    match validate s with
    | none => s.release
    | some p =>
      let r := dispatch p.fc p.data s.store
      (State.transmit bcastTx ((s.withStore r.2.2).build p.addr r.1 r.2.1) p.addr).release
  else s

/-- RST (R280). -/
def execRst (s : State) : Result := .next (resetCore s).accept

/-- CFG (R232); refused, it changes nothing and reports CMD_REFUSED (R233). -/
def execCfg (addr : Byte) (baud : BitVec 32) (s : State) : Result :=
  match cfgThreshold addr baud with
  | none => .next s.refuse
  | some thr => .next (configure addr thr s).accept

/-- PRC (R236), with the reference dispatcher (decision D28). -/
def execPrc (s : State) : Result := .next (process (dsp Config.excBadLength) Config.bcastTx s).accept

end Sys2Proof.Machine
end

