-- ==== Sys2Proof/Machine/Dispatch.lean ====
section
/-! DEFINITION. The meaning of each instruction: one arm per constructor of Instr. -/

namespace Sys2Proof.Machine

def exec (i : Instr) (s : State) : Host.Outcome State Fault Refusal :=
  match i with
  -- the five commands
  | .rst => Sys2Proof.Machine.execRst s
  | .cfg addr baud => Sys2Proof.Machine.execCfg addr baud s
  | .rxb data => Sys2Proof.Machine.execRxb data s
  | .tck => Sys2Proof.Machine.execTck s
  | .prc => Sys2Proof.Machine.execPrc s
  -- the three wire operations
  | .rhr data => Sys2Proof.Machine.execRhr data s
  | .wsr data => Sys2Proof.Machine.execWsr data s
  | .fcx fc data => Sys2Proof.Machine.execFcx fc data s
  -- the CRC-16 engine
  | .crcInit => Sys2Proof.Machine.execCrcInit s
  | .crcBit crc => Sys2Proof.Machine.execCrcBit crc s
  | .crcByte crc b => Sys2Proof.Machine.execCrcByte crc b s
  | .crcBlk bytes => Sys2Proof.Machine.execCrcBlk bytes s
  | .crcChk bytes => Sys2Proof.Machine.execCrcChk bytes s
  | .crcApp bytes => Sys2Proof.Machine.execCrcApp bytes s
  -- the inactivity timer
  | .tmrCfg baud => Sys2Proof.Machine.execTmrCfg baud s
  | .tmrLoad => Sys2Proof.Machine.execTmrLoad s
  | .tmrDec => Sys2Proof.Machine.execTmrDec s
  -- the frame receiver
  | .rxStart b => Sys2Proof.Machine.execRxStart b s
  | .rxAppend b => Sys2Proof.Machine.execRxAppend b s
  | .rxDrop b => Sys2Proof.Machine.execRxDrop b s
  | .rxExpire => Sys2Proof.Machine.execRxExpire s
  -- the frame validator
  | .valLen => Sys2Proof.Machine.execValLen s
  | .valCrc => Sys2Proof.Machine.execValCrc s
  | .valAddr => Sys2Proof.Machine.execValAddr s
  | .valPdu => Sys2Proof.Machine.execValPdu s
  | .discard => Sys2Proof.Machine.execDiscard s
  -- the dispatcher, the response builder, the release
  | .dsp fc data => Sys2Proof.Machine.execDsp fc data s
  | .bld a fc payload => Sys2Proof.Machine.execBld a fc payload s
  | .snd a => Sys2Proof.Machine.execSnd a s
  | .rel => Sys2Proof.Machine.execRel s

end Sys2Proof.Machine
end

