-- ==== Sys2Proof/Machine/Port.lean ====
section
/-! DEFINITION. How the environment places a command at the port (spec 30_encoding.md R78), and how a request comes to
wait in the frame buffer. -/

namespace Sys2Proof.Machine

/-- A command placed so that it is the next to run. -/
def State.issue (s : State) (w : CmdWord) : State := { s with inbox := w :: s.inbox }

/-- The request `pdu`, addressed to this slave and with its CRC, received whole and waiting for PRC: what the RXB and
TCK commands of its arrival leave (42_receiver.md R149). -/
def State.awaitFrame (s : State) (pdu : List Byte) : State :=
  { s with
    rxbuf := Memory.writeBytes s.rxbuf 0 (crcAppend (s.addr :: pdu))
    len := pdu.length + 3
    cnt := 0
    rxState := .complete }

end Sys2Proof.Machine
end

