-- ==== Sys2Proof/Machine/Step.lean ====
section
/-! DEFINITION. One step (spec 46_engine_commands.md R240): the oldest command at the port is decoded and runs to
completion. -/

namespace Sys2Proof.Machine

/-- The block takes no step that is not a command (R230), so with none at the port nothing changes. A command word with
a reserved `op` changes nothing and reports CMD_REFUSED (30_encoding.md R80). -/
def step (s : State) : Host.Outcome State Fault Refusal :=
  match s.takeCommand with
  | none => .next s
  | some (w, s') =>
    match decode (.cmd w) with
    | .ok i => exec i s'
    | .error _ => .next s'.refuse

/-- `s` with an instruction of the opcode table placed so that the next step runs it: a command word at the head of the
port, or, for a wire operation, its request waiting in RXBUF with PRC at the head of the port (assumption log 11). -/
def State.withFetchWord (s : State) (nbits w : Nat) : State :=
  match tableCode nbits w with
  | none => s
  | some (.cmd word) => s.issue word
  | some (.pdu bytes) => (s.awaitFrame bytes).issue (mkCmd 4 0 0)

end Sys2Proof.Machine
end

