-- ==== Sys2Proof/Machine/Programs.lean ====
section
/-! DEFINITION. Programs: finite sequences of commands (spec 00_scope.md R11), their running, the pseudo-instructions of
30_encoding.md R84 as lists of commands, and the one-line notation of R83. -/

namespace Sys2Proof.Machine

/-- Instructions run one after another, each to completion before the next (20_memory.md R59), stopping at the first
that does not answer a next state. -/
def execAll : List Instr → State → Result
  | [], s => .next s
  | i :: is, s =>
    match exec i s with
    | .next s' => execAll is s'
    | .fault f => .fault f
    | .refused r => .refused r

/-- `TCK *n` (R84). -/
def ticks (n : Nat) : List Instr := List.replicate n .tck

/-- `BYTES b0 b1 ... bk` (R84). -/
def bytesReceived (bs : List Byte) : List Instr := bs.map .rxb

/-- `SILENCE`, with the threshold the last accepted CFG computed (R84). -/
def silence (thr : Nat) : List Instr := ticks thr

/-- `REQ b0 b1 ... bk`: the bytes and their CRC (R84). -/
def request (bs : List Byte) : List Instr := bytesReceived (crcAppend bs)

/-- `FRAME b0 ... bk`: one complete exchange (R84). -/
def frameExchange (thr : Nat) (bs : List Byte) : List Instr := request bs ++ silence thr ++ [.prc]

/-- `BOOT a, r`: reset to IDLE (R84). -/
def boot (a : Byte) (baud : BitVec 32) : List Instr := [.rst, .cfg a baud] ++ silence (thrOfBaud baud.toNat)

/-- One hexadecimal digit. -/
def hexDigit (n : Nat) : Char := if n < 10 then Char.ofNat (48 + n) else Char.ofNat (55 + n)

/-- A byte in the notation of R83 and R12. -/
def hexByte (b : Byte) : String := "0x" ++ String.ofList [hexDigit (b.toNat / 16), hexDigit (b.toNat % 16)]

/-- A command as one line of text (R83); a micro-operation or wire operation has none. -/
def asmLine : Instr → Option String
  | .rst => some "RST"
  | .cfg addr baud => some ("CFG " ++ toString addr.toNat ++ ", " ++ toString baud.toNat)
  | .rxb data => some ("RXB " ++ hexByte data)
  | .tck => some "TCK"
  | .prc => some "PRC"
  | .rhr _ | .wsr _ | .fcx _ _ => none
  | .crcInit | .crcBit _ | .crcByte _ _ | .crcBlk _ | .crcChk _ | .crcApp _ => none
  | .tmrCfg _ | .tmrLoad | .tmrDec => none
  | .rxStart _ | .rxAppend _ | .rxDrop _ | .rxExpire => none
  | .valLen | .valCrc | .valAddr | .valPdu | .discard => none
  | .dsp _ _ | .bld _ _ _ | .snd _ | .rel => none

end Sys2Proof.Machine
end

