-- ==== Sys2Proof/Safety.lean ====
section
/-! DEFINITION. What counts as a safe run: the invariants of the block (spec 10_state.md R35), the widths of its
registers (R10), and the canonical form of its memories. -/

namespace Sys2Proof.Machine

/-- The nine items of R35. -/
structure Invariants (s : State) : Prop where
  /-- R35 item 1 -/
  len_le : s.len ≤ 256
  /-- R35 item 2 -/
  len_zero : s.rxState = .init ∨ s.rxState = .idle → s.len = 0
  /-- R35 item 3 -/
  len_pos : s.rxState = .receiving ∨ s.rxState = .complete → 1 ≤ s.len
  /-- R35 item 4 -/
  armed : s.cnt ≠ 0 → (s.rxState = .init ∨ s.rxState = .receiving) ∧ 1 ≤ s.cnt ∧ s.cnt ≤ s.thr
  /-- R35 item 5 -/
  receiving_armed : s.rxState = .receiving → s.cnt ≠ 0
  /-- R35 item 6 -/
  inert : s.rxState = .idle ∨ s.rxState = .complete → s.cnt = 0
  /-- R35 item 7 -/
  configured : s.rxState ≠ .init → 1 ≤ s.addr.toNat ∧ s.addr.toNat ≤ 247 ∧ 1 ≤ s.thr
  /-- R35 item 8 -/
  unconfigured : s.rxState = .init → s.cnt = 0 → s.thr = 0
  /-- R35 item 9 -/
  txlen_range : s.txlen = 0 ∨ 4 ≤ s.txlen ∧ s.txlen ≤ 256

/-- The registers the model holds as naturals fit the widths of R10: THR and CNT 16 bits, LEN and TXLEN 9 bits. -/
structure WidthsHold (s : State) : Prop where
  thr_lt : s.thr < 2 ^ 16
  cnt_lt : s.cnt < 2 ^ 16
  len_lt : s.len < 2 ^ 9
  txlen_lt : s.txlen < 2 ^ 9

/-- The buffers are canonical and hold no cell outside 0 to 255 (20_memory.md R65), and every cell a rule may read has
been written since the last reset (70_reset_and_hazards.md R281). -/
structure BuffersHold (s : State) : Prop where
  rx_wf : Memory.wf s.rxbuf = true
  tx_wf : Memory.wf s.txbuf = true
  rx_written : ∀ i, i < s.len → (Memory.read? s.rxbuf i).isSome = true
  tx_written : ∀ i, i < s.txlen → (Memory.read? s.txbuf i).isSome = true

/-- The invariant of every run. Beside R35's items: an armed timer has been configured, which is what makes them
inductive (CFG, the one command that arms the timer in INIT, writes a legal ADDR: 46_engine_commands.md R232); the store
keeps its NREGS words, 1 to 25536 (00_scope.md R9). -/
structure SafeState (s : State) : Prop where
  invariants : Invariants s
  widths : WidthsHold s
  buffers : BuffersHold s
  armed_configured : s.cnt ≠ 0 → 1 ≤ s.addr.toNat ∧ s.addr.toNat ≤ 247
  nregs_range : 1 ≤ s.store.length ∧ s.store.length ≤ 25536

/-- Every frame handed to the transport has a frame's length and a good CRC (45_response_builder.md R213). -/
def SentGood (s : State) : Prop := ∀ f ∈ s.sent, 4 ≤ f.length ∧ f.length ≤ 256 ∧ crcCheck f = true

end Sys2Proof.Machine
end

