-- ==== Sys2Proof/Certificates/Slice0/Obligations.lean ====
section
/-! DEFINITION. The statements for the provers. Each docstring names the rule of the spec it formalises, and says where a
clause is the spec's own decision or the model's own choice. -/

open Sys2Proof Sys2Proof.Machine

/-! ### Encoding -/

/-- 30_encoding.md R79: the fields of a command word, the ignored bits, and the zeros an assembler emits. -/
def Obligations.CommandWordFields : Prop :=
  (∀ w : BitVec 44,
    (w.extractLsb' 40 4 = 0#4 → decode (.cmd w) = .ok .rst) ∧
    (w.extractLsb' 40 4 = 1#4 → decode (.cmd w) = .ok (.cfg (w.extractLsb' 32 8) (w.extractLsb' 0 32))) ∧
    (w.extractLsb' 40 4 = 2#4 → decode (.cmd w) = .ok (.rxb (w.extractLsb' 32 8))) ∧
    (w.extractLsb' 40 4 = 3#4 → decode (.cmd w) = .ok .tck) ∧
    (w.extractLsb' 40 4 = 4#4 → decode (.cmd w) = .ok .prc) ∧
    (5 ≤ (w.extractLsb' 40 4).toNat → decode (.cmd w) = .error (.reservedOp (w.extractLsb' 40 4)))) ∧
  encode .rst = some (.cmd 0x00000000000#44) ∧
  encode .tck = some (.cmd 0x30000000000#44) ∧
  encode .prc = some (.cmd 0x40000000000#44) ∧
  (∀ a : Byte, ∃ w, encode (.rxb a) = some (.cmd w) ∧ w.toNat = 2 * 2 ^ 40 + a.toNat * 2 ^ 32) ∧
  (∀ (a : Byte) (r : BitVec 32), ∃ w, encode (.cfg a r) = some (.cmd w) ∧
    w.toNat = 2 ^ 40 + a.toNat * 2 ^ 32 + r.toNat)

/-- 30_encoding.md R72 to R74, R85: a decoder of request frames looks at the function byte alone. -/
def Obligations.FunctionByteSelectsOperation : Prop :=
  ∀ (fc : Byte) (data : List Byte), data.length ≤ 252 →
    (fc = 0x03#8 → decode (.pdu (fc :: data)) = .ok (.rhr data)) ∧
    (fc = 0x06#8 → decode (.pdu (fc :: data)) = .ok (.wsr data)) ∧
    (fc ≠ 0x03#8 → fc ≠ 0x06#8 → decode (.pdu (fc :: data)) = .ok (.fcx fc data))

/-- Some of the command words of 95_test_vectors.md section 2.8, and the function bytes of R72 to R74. -/
def Obligations.KnownWordsDecode : Prop :=
  decode (.cmd 0x00000000000#44) = .ok .rst ∧
  decode (.cmd 0x10100002580#44) = .ok (.cfg 1 9600) ∧
  decode (.cmd 0x1F70000000C#44) = .ok (.cfg 247 12) ∧
  decode (.cmd 0x2FF00000000#44) = .ok (.rxb 0xFF) ∧
  decode (.cmd 0x3FF12345678#44) = .ok .tck ∧
  decode (.cmd 0x40000000000#44) = .ok .prc ∧
  decode (.pdu [0x03, 0x9C, 0x41, 0x00, 0x02]) = .ok (.rhr [0x9C, 0x41, 0x00, 0x02]) ∧
  decode (.pdu [0x06, 0x9C, 0x40, 0x12, 0x34]) = .ok (.wsr [0x9C, 0x40, 0x12, 0x34]) ∧
  decode (.pdu [0x83]) = .ok (.fcx 0x83 [])

/-- Every well-formed command and wire operation has a code, and decoding it gives the instruction back, every operand
at every value. -/
def Obligations.DecodeOfEncodeIsIdentity : Prop :=
  ∀ i : Instr, i.wf = true → i.format ≠ .micro → ∃ c, encode i = some c ∧ decode c = .ok i

/-- The other direction. A PDU has one meaning and is its instruction's only code; a command word means what the word
with zeros in its ignored bits means. -/
def Obligations.EncodeOfDecodeIsCanonical : Prop :=
  (∀ (bytes : List Byte) (i : Instr), decode (.pdu bytes) = .ok i →
    i.wf = true ∧ i.format = .frame ∧ encode i = some (.pdu bytes)) ∧
  (∀ (w : BitVec 44) (i : Instr), decode (.cmd w) = .ok i →
    i.wf = true ∧ i.format = .cmd ∧
    ∃ w' : BitVec 44, encode i = some (.cmd w') ∧ decode (.cmd w') = .ok i ∧
      w'.extractLsb' 40 4 = w.extractLsb' 40 4 ∧ w' &&& w = w')

/-! ### The step -/

/-- 46_engine_commands.md R240: one command is one step. What step adds around exec is the taking of the oldest command
from the port; that a step with no command at the port changes nothing is the model's choice (assumption log 1), as the
block takes no step that is not a command. -/
def Obligations.StepRunsTheDecodedCommand : Prop :=
  (∀ (s : State) (w : BitVec 44) (rest : List (BitVec 44)) (i : Instr),
    s.inbox = w :: rest → decode (.cmd w) = .ok i → step s = exec i { s with inbox := rest }) ∧
  (∀ s : State, s.inbox = [] → step s = .next s)

/-- 30_encoding.md R80: a reserved code is refused. The word leaves the port (assumption log 1).
The field `status` is the model's own (assumption log 3). -/
def Obligations.ReservedCodeIsRefused : Prop :=
  ∀ (s : State) (w : BitVec 44) (rest : List (BitVec 44)),
    s.inbox = w :: rest → 5 ≤ (w.extractLsb' 40 4).toNat →
      step s = .next { s with inbox := rest, status := .refused }

/-- 46_engine_commands.md section 4, 60_exceptions.md section 2: no fault outcome, no stuck state, for any input in any
state, reachable or not. -/
def Obligations.EveryStepAnswersNext : Prop := ∀ s : State, ∃ t, step s = .next t

/-- 10_state.md section 4 (R35), with the register widths of R10, the canonical form of the buffers and the written
cells of R281. -/
def Obligations.PowerUpMeetsInvariant : Prop := SafeState State.reset

/-- 10_state.md section 4 (R35): from every state that meets the invariant, every step gives one that does. -/
def Obligations.EveryStepKeepsInvariant : Prop := ∀ s t : State, SafeState s → step s = .next t → SafeState t

/-- 45_response_builder.md R213: whatever is handed to the transport is 4 to 256 bytes long and passes the CRC check. -/
def Obligations.EverythingSentIsAGoodFrame : Prop := ∀ s t : State, SentGood s → step s = .next t → SentGood t

/-- 00_scope.md R17, 10_state.md R29: no command sees or changes the result an operation executed alone left behind (the
model's own latches, assumption log 4). -/
def Obligations.CommandsIgnoreTheLatches : Prop :=
  ∀ (s t : State) (l : Latch), step s = .next t →
    t.latch = s.latch ∧ step { s with latch := l } = .next { t with latch := l }

/-- 42_receiver.md section 2 (R141): every change of STATE the block can make. -/
def Obligations.ReceiverTransitionsAreTheTable : Prop :=
  ∀ (s t : State), step s = .next t → t.rxState ≠ s.rxState →
    ∃ w rest i, s.inbox = w :: rest ∧ decode (.cmd w) = .ok i ∧
      ((i = .rst ∧ t.rxState = .init) ∨
       (∃ (a : Byte) (r : BitVec 32), i = .cfg a r ∧ 1 ≤ a.toNat ∧ a.toNat ≤ 247 ∧ 12 ≤ r.toNat ∧ t.rxState = .init) ∨
       (i = .tck ∧ s.cnt = 1 ∧ s.rxState = .init ∧ t.rxState = .idle) ∨
       (∃ b : Byte, i = .rxb b ∧ s.rxState = .idle ∧ t.rxState = .receiving) ∨
       (i = .tck ∧ s.cnt = 1 ∧ s.rxState = .receiving ∧ t.rxState = .complete) ∨
       (i = .prc ∧ s.rxState = .complete ∧ t.rxState = .idle))

/-- 10_state.md section 3 (R31), 60_exceptions.md section 3 (R256), with the flags of R280, R232 and R236: what raises and
what ends FRAME_READY and TIMER_ARMED. That a byte which reloads a threshold of 0 ends TIMER_ARMED needs a
state no run reaches: the last part says that from a state that meets the invariant only a tick and RST end it. -/
def Obligations.ConditionsChangeOnlyByTheirCauses : Prop :=
  ∀ (s t : State), step s = .next t →
    (s.frameReady = false → t.frameReady = true →
      ∃ w rest, s.inbox = w :: rest ∧ decode (.cmd w) = .ok .tck ∧ s.rxState = .receiving ∧ s.cnt = 1) ∧
    (s.frameReady = true → t.frameReady = false →
      s.rxState = .complete ∧ ∃ w rest i, s.inbox = w :: rest ∧ decode (.cmd w) = .ok i ∧
        (i = .prc ∨ i = .rst ∨
         (∃ (a : Byte) (r : BitVec 32), i = .cfg a r ∧ 1 ≤ a.toNat ∧ a.toNat ≤ 247 ∧ 12 ≤ r.toNat))) ∧
    (s.timerArmed = false → t.timerArmed = true →
      ∃ w rest i, s.inbox = w :: rest ∧ decode (.cmd w) = .ok i ∧
        ((∃ (a : Byte) (r : BitVec 32), i = .cfg a r ∧ 1 ≤ a.toNat ∧ a.toNat ≤ 247 ∧ 12 ≤ r.toNat) ∨
         (∃ b : Byte, i = .rxb b ∧ (s.rxState = .idle ∨ s.rxState = .receiving)))) ∧
    (s.timerArmed = true → t.timerArmed = false →
      ∃ w rest i, s.inbox = w :: rest ∧ decode (.cmd w) = .ok i ∧
        ((i = .tck ∧ s.cnt = 1) ∨ i = .rst ∨ (∃ b : Byte, i = .rxb b ∧ s.thr = 0))) ∧
    (SafeState s → s.timerArmed = true → t.timerArmed = false →
      ∃ w rest, s.inbox = w :: rest ∧
        ((decode (.cmd w) = .ok .tck ∧ s.cnt = 1) ∨ decode (.cmd w) = .ok .rst))

/-- 45_response_builder.md section 4 (R217), 20_memory.md R60: who may change the buffers, by receiver state, cell by
cell. RST, which leaves the buffers unspecified in every state, is the one other command that touches them. -/
def Obligations.BuffersChangeOnlyByTheirOwner : Prop :=
  ∀ (s t : State), step s = .next t →
    (∀ i, t.rxByte i ≠ s.rxByte i →
      ∃ w rest c, s.inbox = w :: rest ∧ decode (.cmd w) = .ok c ∧
        (c = .rst ∨ (∃ b : Byte, c = .rxb b ∧ s.rxState = .idle ∧ i = 0 ∧ t.rxByte i = b) ∨
         (∃ b : Byte, c = .rxb b ∧ s.rxState = .receiving ∧ s.len < 256 ∧ i = s.len ∧ t.rxByte i = b))) ∧
    (t.txlen ≠ s.txlen ∨ (∃ i, t.txByte i ≠ s.txByte i) →
      ∃ w rest c, s.inbox = w :: rest ∧ decode (.cmd w) = .ok c ∧
        (c = .rst ∨ (c = .prc ∧ s.rxState = .complete)))

/-- 44_dispatcher_and_store.md R194: a store changes only through a successful WSR, inside PRC, on a frame the validator
passed, and then exactly at the word addressed, to the value given. That wire address 40000 is the first word, the base
40001, is decision D16 of the spec (20_memory.md R56; assumption log 5). -/
def Obligations.StoreChangesOnlyByAValidWrite : Prop :=
  ∀ (s t : State), step s = .next t → t.store ≠ s.store →
    ∃ w rest, s.inbox = w :: rest ∧ decode (.cmd w) = .ok .prc ∧
      s.rxState = .complete ∧ s.len = 8 ∧ crc16 s.rxFrame = 0#16 ∧
      (s.rxByte 0 = s.addr ∨ s.rxByte 0 = 0#8) ∧ s.rxByte 1 = 0x06#8 ∧
      40000 ≤ 256 * (s.rxByte 2).toNat + (s.rxByte 3).toNat ∧
      256 * (s.rxByte 2).toNat + (s.rxByte 3).toNat < 40000 + s.store.length ∧
      t.store = s.store.set (256 * (s.rxByte 2).toNat + (s.rxByte 3).toNat - 40000) (s.rxByte 4 ++ s.rxByte 5)

/-- 10_state.md R41, 46_engine_commands.md R236: the record of what was sent only grows, by at most one frame a step,
the response just built, and only where PRC answers a frame the validator passed and this slave is addressed by; from a
state that meets the invariant its address byte is a unicast address, 1 to 247. That a response to a broadcast is not sent is
decision D12 of the spec, the 4 bytes of the shortest frame decision D7. -/
def Obligations.SentGrowsOnlyByTheResponseBuilt : Prop :=
  ∀ (s t : State), step s = .next t →
    t.sent = s.sent ∨
    (t.sent = s.sent ++ [t.txFrame] ∧ s.rxState = .complete ∧
      4 ≤ s.len ∧ crc16 s.rxFrame = 0#16 ∧ s.rxByte 0 = s.addr ∧ s.rxByte 0 ≠ 0#8 ∧
      (SafeState s → 1 ≤ (s.rxByte 0).toNat ∧ (s.rxByte 0).toNat ≤ 247) ∧
      ∃ w rest, s.inbox = w :: rest ∧ decode (.cmd w) = .ok .prc)

/-! ### Reset and configuration -/

/-- 70_reset_and_hazards.md R281: the first state of every run. -/
def Obligations.PowerUpState : Prop :=
  State.reset.rxState = .init ∧ State.reset.addr = 0#8 ∧ State.reset.thr = 0 ∧ State.reset.len = 0 ∧
  State.reset.cnt = 0 ∧ State.reset.txlen = 0 ∧ State.reset.sent = [] ∧
  1 ≤ State.reset.store.length ∧ State.reset.store.length ≤ 25536 ∧
  (∀ i, i < State.reset.store.length → State.reset.store[i]? = some (Config.storeInit i))

/-- 70_reset_and_hazards.md R280: RST, from every state. Of the buffers it says that their contents are unspecified: every
cell reads as an open value of the model, fresh for each RST (assumption log 2).
The field `status` is the model's own (assumption log 3). -/
def Obligations.ResetCommandResult : Prop :=
  ∀ s : State, ∃ t, exec .rst s = .next t ∧
    t = { s with
      rxState := .init
      addr := 0#8
      thr := 0
      len := 0
      cnt := 0
      txlen := 0
      rxbuf := t.rxbuf
      txbuf := t.txbuf
      resets := s.resets + 1
      status := .accepted } ∧
    (∀ i, t.rxByte i = Config.unspecifiedByte (s.resets + 1) .rxbuf i) ∧
    (∀ i, t.txByte i = Config.unspecifiedByte (s.resets + 1) .txbuf i) ∧
    t.frameReady = false ∧ t.timerArmed = false

/-- 70_reset_and_hazards.md R283 (and the example of R280): without a CFG the block stays in INIT and ignores
everything. -/
def Obligations.UnconfiguredBlockStaysInInit : Prop :=
  ∀ (s : State) (is : List Instr), (∀ i ∈ is, i = .tck ∨ i = .prc ∨ ∃ b, i = .rxb b) →
    ∃ t, exec .rst s = .next t ∧ execAll (.rst :: is) s = .next t

/-- 46_engine_commands.md R232 and R233: CFG, accepted or refused. The formula below 19200 baud is decision D6 of the
spec.
The field `status` is the model's own (assumption log 3). -/
def Obligations.ConfigureOrRefuse : Prop :=
  ∀ (s : State) (a : Byte) (baud : BitVec 32),
    ((a.toNat < 1 ∨ 247 < a.toNat ∨ baud.toNat < 12) → exec (.cfg a baud) s = .next { s with status := .refused }) ∧
    (1 ≤ a.toNat → a.toNat ≤ 247 → 12 ≤ baud.toNat →
      exec (.cfg a baud) s = .next { s with
        addr := a
        thr := if 19200 < baud.toNat then 35 else 770000 / baud.toNat
        cnt := if 19200 < baud.toNat then 35 else 770000 / baud.toNat
        len := 0
        rxState := .init
        status := .accepted })

/-- 70_reset_and_hazards.md R283: the THR-th tick after the CFG takes INIT to IDLE, and no earlier one does, whatever
bytes and PRC commands come between the ticks. -/
def Obligations.BringUpTakesThresholdTicks : Prop :=
  ∀ (s : State) (a : Byte) (baud : BitVec 32) (is : List Instr),
    1 ≤ a.toNat → a.toNat ≤ 247 → 12 ≤ baud.toNat →
    (∀ i ∈ is, i = .tck ∨ i = .prc ∨ ∃ b, i = .rxb b) →
    ∃ t u, execAll [.rst, .cfg a baud] s = .next t ∧ execAll ([.rst, .cfg a baud] ++ is) s = .next u ∧
      (is.count .tck < t.thr → u = { t with cnt := t.thr - is.count .tck }) ∧
      (is.count .tck = t.thr → is.getLast? = some .tck → u = { t with cnt := 0, rxState := .idle })

/-! ### The timer -/

/-- 41_timer.md R121, R124 and R126: TMR.CFG, TMR.LOAD, and TMR.DEC of an armed timer. The formula below 19200 baud is
decision D6 of the spec; that a refused TMR.CFG executed alone reports CMD_REFUSED is the model's choice (assumption
log 3).
The latches are the model's own (assumption log 4). -/
def Obligations.TimerMicroOperationResults : Prop :=
  ∀ (s : State) (baud : BitVec 32),
    (baud.toNat < 12 → exec (.tmrCfg baud) s = .next { s with status := .refused }) ∧
    (12 ≤ baud.toNat → exec (.tmrCfg baud) s =
      .next { s with thr := if 19200 < baud.toNat then 35 else 770000 / baud.toNat }) ∧
    exec .tmrLoad s = .next { s with cnt := s.thr } ∧
    (1 ≤ s.cnt → exec .tmrDec s =
      .next { s with cnt := s.cnt - 1, latch := { s.latch with expiry := decide (s.cnt - 1 = 0) } })

/-- 41_timer.md R120 (a) and (b), R25: the threshold is 35 above 19200 baud, does not rise with the baud rate at and below
it, and is 1 to 65535. -/
def Obligations.ThresholdIsLegalAndFalling : Prop :=
  ∀ (s : State) (baud : BitVec 32), 12 ≤ baud.toNat →
    ∃ t, exec (.tmrCfg baud) s = .next t ∧ 1 ≤ t.thr ∧ t.thr ≤ 65535 ∧
      (19200 < baud.toNat → t.thr = 35) ∧
      (∀ baud' : BitVec 32, baud.toNat ≤ baud'.toNat → baud'.toNat ≤ 19200 →
        ∃ t', exec (.tmrCfg baud') s = .next t' ∧ t'.thr ≤ t.thr)

/-- 41_timer.md section 4 (R125, R126), 42_receiver.md section 4 (R148): TCK, and RX.EXPIRE in all four receiver states. That
0 is the inert count is decision D5 of the spec, that an expiry in IDLE or COMPLETE does nothing decision D19.
The field `status` is the model's own (assumption log 3). -/
def Obligations.TickAndExpireResults : Prop :=
  (∀ s : State,
    (s.cnt = 0 → exec .tck s = .next { s with status := .accepted }) ∧
    (2 ≤ s.cnt → exec .tck s = .next { s with cnt := s.cnt - 1, status := .accepted }) ∧
    (s.cnt = 1 → exec .tck s = .next { s with
      cnt := 0
      rxState := if s.rxState = .init then .idle else if s.rxState = .receiving then .complete else s.rxState
      status := .accepted })) ∧
  (∀ s : State,
    (s.rxState = .init → exec .rxExpire s = .next { s with rxState := .idle }) ∧
    (s.rxState = .receiving → exec .rxExpire s = .next { s with rxState := .complete }) ∧
    (s.rxState = .idle ∨ s.rxState = .complete → exec .rxExpire s = .next s))

/-- 41_timer.md section 5 (R127, R128): of the ticks after a reload the THR-th raises the expiry and no other does; a
shorter run of ticks counts down.
The field `status` is the model's own (assumption log 3). -/
def Obligations.ExpiryExactlyOnceAfterThresholdTicks : Prop :=
  ∀ (s : State) (n : Nat), 1 ≤ s.thr → 1 ≤ n →
    (n < s.thr → execAll (.tmrLoad :: ticks n) s = .next { s with cnt := s.thr - n, status := .accepted }) ∧
    (s.thr ≤ n → execAll (.tmrLoad :: ticks n) s = .next { s with
      cnt := 0
      rxState := if s.rxState = .init then .idle else if s.rxState = .receiving then .complete else s.rxState
      status := .accepted })

/-! ### The receiver -/

/-- 42_receiver.md R143: the first byte of a frame, as RX.START and as RXB.
The field `status` is the model's own (assumption log 3). -/
def Obligations.FirstByteStartsAFrame : Prop :=
  ∀ (s : State) (b : Byte), s.rxState = .idle →
    ∃ t, exec (.rxStart b) s = .next t ∧ exec (.rxb b) s = .next { t with status := .accepted } ∧
      t = { s with rxbuf := t.rxbuf, len := 1, cnt := s.thr, rxState := .receiving } ∧
      t.rxByte 0 = b ∧ (∀ j, j ≠ 0 → t.rxByte j = s.rxByte j)

/-- 42_receiver.md R144: a further byte, as RX.APPEND and as RXB; it goes to the cell LEN names before the command.
The field `status` is the model's own (assumption log 3). -/
def Obligations.FurtherByteIsAppended : Prop :=
  ∀ (s : State) (b : Byte), s.rxState = .receiving → s.len < 256 →
    ∃ t, exec (.rxAppend b) s = .next t ∧ exec (.rxb b) s = .next { t with status := .accepted } ∧
      t = { s with rxbuf := t.rxbuf, len := s.len + 1, cnt := s.thr } ∧
      t.rxByte s.len = b ∧ (∀ j, j ≠ s.len → t.rxByte j = s.rxByte j)

/-- 42_receiver.md R146: a byte in COMPLETE is dropped, and nothing changes, the timer included. The same at capacity (R145,
decision D11 of the spec) and in INIT (R147, decision D10).
The field `status` is the model's own (assumption log 3). -/
def Obligations.UnacceptedByteChangesNothing : Prop :=
  ∀ (s : State) (b : Byte),
    (s.rxState = .receiving ∧ 256 ≤ s.len) ∨ s.rxState = .complete ∨ s.rxState = .init →
      exec (.rxDrop b) s = .next s ∧ exec (.rxb b) s = .next { s with status := .accepted }

/-- THE MODEL'S CHOICE, assumption log 6: a receiver or timer micro-operation executed alone outside its precondition
(42_receiver.md R143, R144, R145 to R147, 41_timer.md R126) does the writes of its pseudocode; the cell past the end of
RXBUF does not exist (20_memory.md R65).
The latches are the model's own (assumption log 4). -/
def Obligations.MicroOperationsOutsideTheirPreconditions : Prop :=
  ∀ (s : State) (b : Byte),
    (∃ t, exec (.rxStart b) s = .next t ∧
      t = { s with rxbuf := t.rxbuf, len := 1, cnt := s.thr, rxState := .receiving } ∧
      t.rxByte 0 = b ∧ (∀ j, j ≠ 0 → t.rxByte j = s.rxByte j)) ∧
    (s.len < 256 → ∃ t, exec (.rxAppend b) s = .next t ∧
      t = { s with rxbuf := t.rxbuf, len := s.len + 1, cnt := s.thr } ∧
      t.rxByte s.len = b ∧ (∀ j, j ≠ s.len → t.rxByte j = s.rxByte j)) ∧
    (256 ≤ s.len → exec (.rxAppend b) s = .fault (.noSuchCell .rxbuf s.len)) ∧
    exec (.rxDrop b) s = .next s ∧
    (s.cnt = 0 → exec .tmrDec s = .next { s with latch := { s.latch with expiry := false } })

/-- 42_receiver.md section 5 (R149): a frame of up to 256 bytes, each following the one before after fewer than THR
ticks, is received whole by the silence after it.
The field `status` is the model's own (assumption log 3). -/
def Obligations.FrameReceivedWholeBySilence : Prop :=
  ∀ (s : State) (l : List (Byte × Nat)),
    s.rxState = .idle → 1 ≤ s.thr → l ≠ [] → l.length ≤ 256 → (∀ p ∈ l, p.2 < s.thr) →
    ∃ t, execAll (l.flatMap (fun p => .rxb p.1 :: ticks p.2) ++ ticks s.thr) s = .next t ∧
      t = { s with rxbuf := t.rxbuf, len := l.length, cnt := 0, rxState := .complete, status := .accepted } ∧
      t.rxFrame = l.map (fun p => p.1)

/-- 42_receiver.md R145, section 5 (R149): of a stream without silence the first 256 bytes are kept, and COMPLETE comes with
the THR-th tick after the 256th byte, not before, although bytes keep arriving. That a dropped byte does not reload the timer
is decision D11 of the spec.
The field `status` is the model's own (assumption log 3). -/
def Obligations.OverlongFrameKeepsFirst256 : Prop :=
  ∀ (s : State) (bs : List Byte) (extra : List (Byte × Nat)),
    s.rxState = .idle → 1 ≤ s.thr → bs.length = 256 →
    ∃ t, execAll (bytesReceived bs ++ extra.flatMap (fun p => .rxb p.1 :: ticks p.2)) s = .next t ∧
      t.rxFrame = bs ∧
      ((extra.map (fun p => p.2)).sum < s.thr → t = { s with
        rxbuf := t.rxbuf
        len := 256
        cnt := s.thr - (extra.map (fun p => p.2)).sum
        rxState := .receiving
        status := .accepted }) ∧
      (s.thr ≤ (extra.map (fun p => p.2)).sum → t = { s with
        rxbuf := t.rxbuf
        len := 256
        cnt := 0
        rxState := .complete
        status := .accepted })

/-- 60_exceptions.md R258 and section 4 (R259): a byte and a tick that arrive together, in either order, where the order
matters; PRC and a byte in either order.
The field `status` is the model's own (assumption log 3). -/
def Obligations.SimultaneousEventsInEitherOrder : Prop :=
  (∀ (s : State) (b : Byte), s.rxState = .receiving → s.cnt = 1 → s.len < 256 → 2 ≤ s.thr →
    (∃ t, execAll [.rxb b, .tck] s = .next t ∧
      t = { s with rxbuf := t.rxbuf, len := s.len + 1, cnt := s.thr - 1, status := .accepted } ∧
      t.rxByte s.len = b ∧ (∀ j, j ≠ s.len → t.rxByte j = s.rxByte j)) ∧
    execAll [.tck, .rxb b] s = .next { s with rxState := .complete, cnt := 0, status := .accepted }) ∧
  (∀ (s : State) (b : Byte), s.rxState = .complete →
    ∃ t u, exec .prc s = .next t ∧ execAll [.rxb b, .prc] s = .next t ∧ execAll [.prc, .rxb b] s = .next u ∧
      u = { t with rxbuf := u.rxbuf, len := 1, cnt := s.thr, rxState := .receiving } ∧
      u.rxByte 0 = b ∧ (∀ j, j ≠ 0 → u.rxByte j = t.rxByte j))

/-- 30_encoding.md R82, 42_receiver.md R142, 41_timer.md R125: RXB and TCK are built from their micro-operations.
The field `status` is the model's own (assumption log 3), the latches are the model's own (assumption log 4). -/
def Obligations.ByteAndTickAreTheirMicroOperations : Prop :=
  ∀ (s : State) (b : Byte),
    (∃ i t, (i = .rxStart b ∨ i = .rxAppend b ∨ i = .rxDrop b) ∧
      (i = .rxStart b ↔ s.rxState = .idle) ∧ (i = .rxAppend b ↔ s.rxState = .receiving ∧ s.len < 256) ∧
      exec i s = .next t ∧ exec (.rxb b) s = .next { t with status := .accepted }) ∧
    (s.cnt = 0 → exec .tck s = .next { s with status := .accepted }) ∧
    (s.cnt ≠ 0 → ∃ t u, exec .tmrDec s = .next t ∧
      (if t.latch.expiry = true then exec .rxExpire t = .next u else u = t) ∧
      exec .tck s = .next { u with latch := s.latch, status := .accepted })

/-! ### The CRC-16 engine -/

/-- 40_crc16.md R100, R101 and R102: CRC.INIT, CRC.BIT, and CRC.BYTE, which is exactly eight CRC.BIT steps after the byte
entered the low half; the result goes to its latch and nothing else changes.
The latches are the model's own (assumption log 4). -/
def Obligations.CrcInitBitByteResults : Prop :=
  (∀ s : State, exec .crcInit s = .next { s with latch := { s.latch with crc := 0xFFFF#16 } }) ∧
  (∀ (s : State) (c : Word), exec (.crcBit c) s = .next { s with latch := { s.latch with
    crc := if c.toNat % 2 = 1 then (c >>> 1) ^^^ 0xA001#16 else c >>> 1 } }) ∧
  (∀ (s : State) (c : Word) (b : Byte), ∃ c1 c2 c3 c4 c5 c6 c7 c8 : Word,
    exec (.crcBit (c ^^^ b.zeroExtend 16)) s = .next { s with latch := { s.latch with crc := c1 } } ∧
    exec (.crcBit c1) s = .next { s with latch := { s.latch with crc := c2 } } ∧
    exec (.crcBit c2) s = .next { s with latch := { s.latch with crc := c3 } } ∧
    exec (.crcBit c3) s = .next { s with latch := { s.latch with crc := c4 } } ∧
    exec (.crcBit c4) s = .next { s with latch := { s.latch with crc := c5 } } ∧
    exec (.crcBit c5) s = .next { s with latch := { s.latch with crc := c6 } } ∧
    exec (.crcBit c6) s = .next { s with latch := { s.latch with crc := c7 } } ∧
    exec (.crcBit c7) s = .next { s with latch := { s.latch with crc := c8 } } ∧
    exec (.crcByte c b) s = .next { s with latch := { s.latch with crc := c8 } })

/-- 40_crc16.md R103, R105 and R107: CRC.BLK is CRC.BYTE over the sequence from the start value, CRC.APP appends its low
and high bytes, CRC.CHK tests it for zero.
The latches are the model's own (assumption log 4). -/
def Obligations.CrcBlockAppendCheckResults : Prop :=
  (∀ s : State, exec (.crcBlk []) s = .next { s with latch := { s.latch with crc := 0xFFFF#16 } }) ∧
  (∀ (s : State) (bs : List Byte) (b : Byte), ∃ c c' : Word,
    exec (.crcBlk bs) s = .next { s with latch := { s.latch with crc := c } } ∧
    exec (.crcByte c b) s = .next { s with latch := { s.latch with crc := c' } } ∧
    exec (.crcBlk (bs ++ [b])) s = .next { s with latch := { s.latch with crc := c' } }) ∧
  (∀ (s : State) (bs : List Byte), ∃ c : Word,
    exec (.crcBlk bs) s = .next { s with latch := { s.latch with crc := c } } ∧
    exec (.crcApp bs) s = .next { s with latch := { s.latch with
      seq := bs ++ [c.extractLsb' 0 8, c.extractLsb' 8 8] } } ∧
    exec (.crcChk bs) s = .next { s with latch := { s.latch with chk := decide (c = 0#16) } })

/-- 40_crc16.md R106: the round-trip law. -/
def Obligations.CrcRoundTripIsZero : Prop := ∀ bs : List Byte, crc16 (crcAppend bs) = 0#16

/-- 40_crc16.md sections 2 and 3 (R104, R108): the table form equals the bit form, and CRC.BYTE is linear over exclusive
or. -/
def Obligations.CrcTableFormAndLinearity : Prop :=
  (∀ (c : Word) (b : Byte), crcByte c b = (c >>> 8) ^^^ crcByte 0#16 ((c ^^^ b.zeroExtend 16).extractLsb' 0 8)) ∧
  (∀ (x y : Word) (b : Byte), crcByte (x ^^^ y) b = crcByte x b ^^^ crcByte y 0x00#8)

/-- 40_crc16.md R107: the residue test is the comparison of the register with zero, and so of the trailing two bytes with
the CRC of the rest: of the 65536 possible trailing pairs exactly one passes. -/
def Obligations.ResidueTestComparesTrailingBytes : Prop :=
  (∀ f : List Byte, crcCheck f = true ↔ crc16 f = 0#16) ∧
  crcCheck [] = false ∧
  (∀ (bs : List Byte) (x y : Byte),
    crcCheck (bs ++ [x, y]) = true ↔ x = (crc16 bs).extractLsb' 0 8 ∧ y = (crc16 bs).extractLsb' 8 8)

/-! ### The validator -/

/-- 43_validator.md section 2: the CRC and the address check (R162, R164), the length check (R161; 4 is decision D7 of the
spec), and of a frame of at least four bytes the address, the function code and the data at indexes 2 to L-3 (R165; decision
D20). That a check executed alone answers a verdict and discards nothing is the model's choice (assumption log 13), and so is
VAL.CRC with LEN below 4, where R162 gives no operand (assumption log 6). The latches are the model's own (assumption
log 4). -/
def Obligations.ValidatorResults : Prop :=
  (∀ s : State,
    exec .valLen s = .next { s with latch := { s.latch with
      verdict := if s.len < 4 then .discard else .pass } } ∧
    exec .valCrc s = .next { s with latch := { s.latch with
      verdict := if crc16 s.rxFrame = 0#16 then .pass else .discard } } ∧
    exec .valAddr s = .next { s with latch := { s.latch with
      verdict := if s.rxByte 0 = s.addr ∨ s.rxByte 0 = 0#8 then .pass else .discard } }) ∧
  (∀ s : State, 4 ≤ s.len →
    ∃ p : Pdu, exec .valPdu s = .next { s with latch := { s.latch with pdu := p } } ∧
      p.addr = s.rxByte 0 ∧ p.fc = s.rxByte 1 ∧ p.data.length = s.len - 4 ∧
      (∀ i, i < s.len - 4 → p.data[i]? = some (s.rxByte (2 + i))))

/-- 43_validator.md R166, 45_response_builder.md R216: the silent discard and the release make the same two writes. -/
def Obligations.DiscardAndReleaseResults : Prop :=
  ∀ s : State, exec .discard s = .next { s with len := 0, rxState := .idle } ∧
    exec .rel s = .next { s with len := 0, rxState := .idle }

/-- 43_validator.md R166, R168: a frame that is too short (4 bytes is decision D7 of the spec), fails the CRC or is addressed
to another gets no response, leaves the store and the buffers as they were, and returns the receiver to IDLE; the silent
discard is the whole effect.
The field `status` is the model's own (assumption log 3). -/
def Obligations.FailedFrameIsDiscardedSilently : Prop :=
  ∀ s : State, exec .discard s = .next { s with len := 0, rxState := .idle } ∧
    (s.rxState = .complete →
      s.len < 4 ∨ crc16 s.rxFrame ≠ 0#16 ∨ (s.rxByte 0 ≠ s.addr ∧ s.rxByte 0 ≠ 0#8) →
        exec .prc s = .next { s with len := 0, rxState := .idle, status := .accepted })

/-! ### The dispatcher and the store -/

/-- 44_dispatcher_and_store.md R189, 30_encoding.md R75: a read answers the byte count and the registers' values, high
byte first, in ascending order; the store is unchanged. The count's limit 125 and the base are decisions D15 and D16 of the
spec.
The latches are the model's own (assumption log 4). -/
def Obligations.ReadAnswersTheRegisters : Prop :=
  ∀ (s : State) (d0 d1 d2 d3 : Byte),
    1 ≤ 256 * d2.toNat + d3.toNat → 256 * d2.toNat + d3.toNat ≤ 125 →
    40000 ≤ 256 * d0.toNat + d1.toNat →
    256 * d0.toNat + d1.toNat + (256 * d2.toNat + d3.toNat) ≤ 40000 + s.store.length →
    ∃ p : List Byte, exec (.rhr [d0, d1, d2, d3]) s = .next { s with latch := { s.latch with handled := .success p } } ∧
      p.length = 1 + 2 * (256 * d2.toNat + d3.toNat) ∧
      p[0]? = some (BitVec.ofNat 8 (2 * (256 * d2.toNat + d3.toNat))) ∧
      (∀ k, k < 256 * d2.toNat + d3.toNat → ∃ v : Word,
        s.store[256 * d0.toNat + d1.toNat - 40000 + k]? = some v ∧
        p[1 + 2 * k]? = some (v.extractLsb' 8 8) ∧ p[2 + 2 * k]? = some (v.extractLsb' 0 8))

/-- 44_dispatcher_and_store.md R184: an unmatched function code. With it R185, R188 and R192: every cause of an exception,
its code, and that nothing but the result latch changes. EXC_BAD_LENGTH is open (assumption log 8); the code 0x02, the limit
125 and the base are decisions D14, D15, D16 of the spec.
The latches are the model's own (assumption log 4). -/
def Obligations.HandlerRefusals : Prop :=
  (∀ (s : State) (d0 d1 d2 d3 : Byte),
    256 * d2.toNat + d3.toNat = 0 ∨ 125 < 256 * d2.toNat + d3.toNat ∨
      256 * d0.toNat + d1.toNat < 40000 ∨
      40000 + s.store.length < 256 * d0.toNat + d1.toNat + (256 * d2.toNat + d3.toNat) →
    exec (.rhr [d0, d1, d2, d3]) s = .next { s with latch := { s.latch with handled := .exception 0x02#8 } }) ∧
  (∀ (s : State) (d0 d1 d2 d3 : Byte),
    256 * d0.toNat + d1.toNat < 40000 ∨ 40000 + s.store.length ≤ 256 * d0.toNat + d1.toNat →
    exec (.wsr [d0, d1, d2, d3]) s = .next { s with latch := { s.latch with handled := .exception 0x02#8 } }) ∧
  (∀ (s : State) (data : List Byte), data.length ≠ 4 →
    exec (.rhr data) s = .next { s with latch := { s.latch with handled := .exception Config.excBadLength } } ∧
    exec (.wsr data) s = .next { s with latch := { s.latch with handled := .exception Config.excBadLength } }) ∧
  (∀ (s : State) (fc : Byte) (data : List Byte), fc ≠ 0x03#8 → fc ≠ 0x06#8 →
    exec (.fcx fc data) s = .next { s with latch := { s.latch with handled := .exception 0x01#8 } })

/-- 44_dispatcher_and_store.md R193, 30_encoding.md R76: a write to a valid address sets exactly that word and echoes the
request. The base is decision D16 of the spec.
The latches are the model's own (assumption log 4). -/
def Obligations.WriteSetsTheWordAndEchoes : Prop :=
  ∀ (s : State) (d0 d1 d2 d3 : Byte),
    40000 ≤ 256 * d0.toNat + d1.toNat → 256 * d0.toNat + d1.toNat < 40000 + s.store.length →
    ∃ t, exec (.wsr [d0, d1, d2, d3]) s = .next t ∧
      t = { s with store := t.store, latch := { s.latch with handled := .success [d0, d1, d2, d3] } } ∧
      t.store.length = s.store.length ∧
      t.store[256 * d0.toNat + d1.toNat - 40000]? = some (d2 ++ d3) ∧
      (∀ i, i ≠ 256 * d0.toNat + d1.toNat - 40000 → t.store[i]? = s.store[i]?)

/-- 44_dispatcher_and_store.md R182 and R183: DSP is the handler the function code selects, an exception's function byte
flagged, its payload the one code byte, its store the one passed in.
The latches are the model's own (assumption log 4). -/
def Obligations.DispatchFlagsExceptions : Prop :=
  ∀ (s : State) (fc : Byte) (data : List Byte),
    ∃ i t r, (i = if fc = 0x03#8 then Instr.rhr data else if fc = 0x06#8 then .wsr data else .fcx fc data) ∧
      exec i s = .next t ∧
      exec (.dsp fc data) s = .next { s with store := t.store, latch := { s.latch with reply := r } } ∧
      (∀ p, t.latch.handled = .success p → r = { fc := fc, payload := p }) ∧
      (∀ c, t.latch.handled = .exception c → t.store = s.store ∧ r = { fc := fc ||| 0x80#8, payload := [c] })

/-- 60_exceptions.md section 1 (R250): which operation raises which code, and no other code is raised.
The latches are the model's own (assumption log 4). -/
def Obligations.OnlyTheListedCodesAreRaised : Prop :=
  ∀ (s t : State) (fc : Byte) (data : List Byte) (c : Byte),
    (exec (.rhr data) s = .next t ∨ exec (.wsr data) s = .next t → t.latch.handled = .exception c →
      (data.length = 4 ∧ excByte .illegalDataAddress = some c) ∨ (data.length ≠ 4 ∧ c = Config.excBadLength)) ∧
    (exec (.fcx fc data) s = .next t → t.latch.handled = .exception c → excByte .illegalFunction = some c)

/-! ### The builder -/

/-- 45_response_builder.md R212: BLD, for any payload; that it is cut at 252 bytes is decision D13 of the spec (R211). What it
lays down is 4 to 256 bytes long and passes the CRC check (R213). -/
def Obligations.BuildLaysDownTheResponse : Prop :=
  ∀ (s : State) (a fc : Byte) (p : List Byte),
    ∃ t, exec (.bld a fc p) s = .next t ∧
      t = { s with txbuf := t.txbuf, txlen := min p.length 252 + 4 } ∧
      t.txFrame = crcAppend (a :: fc :: p.take 252) ∧
      (∀ i, t.txlen ≤ i → t.txByte i = s.txByte i) ∧
      4 ≤ t.txlen ∧ t.txlen ≤ 256 ∧ crcCheck t.txFrame = true

/-- 45_response_builder.md R214 with BCAST_TX at its value false (decision D12 of the spec): SND. -/
def Obligations.SendHandsOverUnlessBroadcast : Prop :=
  ∀ (s : State) (a : Byte),
    (a ≠ 0#8 → exec (.snd a) s = .next { s with sent := s.sent ++ [s.txFrame] }) ∧
    (a = 0#8 → exec (.snd a) s = .next s)

/-! ### Processing a frame -/

/-- 46_engine_commands.md R236: PRC, as the sequence of its micro-operations.
The field `status` is the model's own (assumption log 3), the latches are the model's own (assumption log 4). -/
def Obligations.ProcessIsItsMicroOperations : Prop :=
  ∀ s : State,
    (s.rxState ≠ .complete → exec .prc s = .next { s with status := .accepted }) ∧
    (s.rxState = .complete →
      ∃ s1 s2 s3, exec .valLen s = .next s1 ∧ exec .valCrc s = .next s2 ∧ exec .valAddr s = .next s3 ∧
        (s1.latch.verdict = .discard ∨ s2.latch.verdict = .discard ∨ s3.latch.verdict = .discard →
          ∃ t, exec .discard s = .next t ∧ exec .prc s = .next { t with status := .accepted }) ∧
        (s1.latch.verdict = .pass → s2.latch.verdict = .pass → s3.latch.verdict = .pass →
          ∃ u v t, exec .valPdu s = .next u ∧ exec (.dsp u.latch.pdu.fc u.latch.pdu.data) u = .next v ∧
            execAll [.bld u.latch.pdu.addr v.latch.reply.fc v.latch.reply.payload, .snd u.latch.pdu.addr, .rel] v =
              .next t ∧
            exec .prc s = .next { t with latch := s.latch, status := .accepted }))

/-- 44_dispatcher_and_store.md R189: a whole read request, answered. The frame is in RXBUF
with its CRC; the base 40001 is decision D16 of the spec, the silence after a broadcast decision D12.
The field `status` is the model's own (assumption log 3). -/
def Obligations.ReadRequestIsAnswered : Prop :=
  ∀ (s : State) (a d0 d1 d2 d3 : Byte), s.rxState = .complete → a = s.addr ∨ a = 0#8 →
    s.rxFrame = crcAppend [a, 0x03#8, d0, d1, d2, d3] →
    1 ≤ 256 * d2.toNat + d3.toNat → 256 * d2.toNat + d3.toNat ≤ 125 →
    40000 ≤ 256 * d0.toNat + d1.toNat →
    256 * d0.toNat + d1.toNat + (256 * d2.toNat + d3.toNat) ≤ 40000 + s.store.length →
    ∃ t, exec .prc s = .next t ∧
      t = { s with
        txbuf := t.txbuf
        txlen := 2 * (256 * d2.toNat + d3.toNat) + 5
        sent := if a = 0#8 then s.sent else s.sent ++ [t.txFrame]
        len := 0
        rxState := .idle
        status := .accepted } ∧
      t.txFrame = crcAppend (a :: 0x03#8 :: BitVec.ofNat 8 (2 * (256 * d2.toNat + d3.toNat)) ::
        ((s.store.drop (256 * d0.toNat + d1.toNat - 40000)).take (256 * d2.toNat + d3.toNat)).flatMap
          (fun v => [v.extractLsb' 8 8, v.extractLsb' 0 8])) ∧
      (∀ i, t.txlen ≤ i → t.txByte i = s.txByte i)

/-- 44_dispatcher_and_store.md R193: a whole write request, answered by its echo: the response is the request, byte for byte.
The base is decision D16 of the spec, the silence after a broadcast decision D12.
The field `status` is the model's own (assumption log 3). -/
def Obligations.WriteRequestIsAnswered : Prop :=
  ∀ (s : State) (a d0 d1 d2 d3 : Byte), s.rxState = .complete → a = s.addr ∨ a = 0#8 →
    s.rxFrame = crcAppend [a, 0x06#8, d0, d1, d2, d3] →
    40000 ≤ 256 * d0.toNat + d1.toNat → 256 * d0.toNat + d1.toNat < 40000 + s.store.length →
    ∃ t, exec .prc s = .next t ∧
      t = { s with
        txbuf := t.txbuf
        txlen := 8
        store := s.store.set (256 * d0.toNat + d1.toNat - 40000) (d2 ++ d3)
        sent := if a = 0#8 then s.sent else s.sent ++ [s.rxFrame]
        len := 0
        rxState := .idle
        status := .accepted } ∧
      t.txFrame = s.rxFrame ∧
      (∀ i, 8 ≤ i → t.txByte i = s.txByte i)

/-- 60_exceptions.md R254, 30_encoding.md R77, with the causes of 44_dispatcher_and_store.md R184, R185, R188, R192: a
request that raises an exception is answered by the five bytes, the store unchanged, and the frame is released like any
other. The codes 0x02 and EXC_BAD_LENGTH, the limit 125, the base and the silence after a broadcast are decisions D14, D15,
D16 and D12 of the spec.
The field `status` is the model's own (assumption log 3). -/
def Obligations.ExceptionIsAnsweredByFiveBytes : Prop :=
  ∀ (s : State) (a fc code : Byte) (data : List Byte), s.rxState = .complete → a = s.addr ∨ a = 0#8 →
    s.rxFrame = crcAppend (a :: fc :: data) →
    (fc ≠ 0x03#8 ∧ fc ≠ 0x06#8 ∧ code = 0x01#8) ∨
    ((fc = 0x03#8 ∨ fc = 0x06#8) ∧ data.length ≠ 4 ∧ code = Config.excBadLength) ∨
    (∃ d0 d1 d2 d3 : Byte, fc = 0x03#8 ∧ data = [d0, d1, d2, d3] ∧ code = 0x02#8 ∧
      (256 * d2.toNat + d3.toNat = 0 ∨ 125 < 256 * d2.toNat + d3.toNat ∨
        256 * d0.toNat + d1.toNat < 40000 ∨
        40000 + s.store.length < 256 * d0.toNat + d1.toNat + (256 * d2.toNat + d3.toNat))) ∨
    (∃ d0 d1 d2 d3 : Byte, fc = 0x06#8 ∧ data = [d0, d1, d2, d3] ∧ code = 0x02#8 ∧
      (256 * d0.toNat + d1.toNat < 40000 ∨ 40000 + s.store.length ≤ 256 * d0.toNat + d1.toNat)) →
    ∃ t, exec .prc s = .next t ∧
      t = { s with
        txbuf := t.txbuf
        txlen := 5
        sent := if a = 0#8 then s.sent else s.sent ++ [t.txFrame]
        len := 0
        rxState := .idle
        status := .accepted } ∧
      t.txFrame = crcAppend [a, fc ||| 0x80#8, code] ∧
      (∀ i, 5 ≤ i → t.txByte i = s.txByte i)

/-- 44_dispatcher_and_store.md R195, 45_response_builder.md R214 (decision D12 of the spec): a broadcast is dispatched
like a unicast frame, its response is built with address 0, and nothing is sent.
The latches are the model's own (assumption log 4). -/
def Obligations.BroadcastIsBuiltAndNotSent : Prop :=
  ∀ s : State, s.rxState = .complete → 4 ≤ s.len → crc16 s.rxFrame = 0#16 → s.rxByte 0 = 0#8 →
    ∃ u t, exec (.dsp (s.rxByte 1) (s.rxSlice 2 (s.len - 2))) s = .next u ∧ exec .prc s = .next t ∧
      t.store = u.store ∧ t.sent = s.sent ∧ t.rxState = .idle ∧ t.len = 0 ∧
      t.txFrame = crcAppend (0x00#8 :: u.latch.reply.fc :: u.latch.reply.payload.take 252)

/-- 44_dispatcher_and_store.md R181, 45_response_builder.md R211, R213: with ANY function at the dispatcher port and either
value of BCAST_TX, PRC builds for every frame that passes the three checks a good frame of at most 256 bytes, made of what
the function answered, and ends in IDLE with LEN = 0; a frame that fails one is discarded. That the payload is cut at 252
bytes is decision D13 of the spec, the 4 bytes of the shortest frame decision D7. -/
def Obligations.AnyDispatcherGetsAGoodResponse : Prop :=
  ∀ (d : DispatchFn) (tx : Bool) (s : State), s.rxState = .complete →
    (4 ≤ s.len ∧ crc16 s.rxFrame = 0#16 ∧ (s.rxByte 0 = s.addr ∨ s.rxByte 0 = 0#8) →
      ∃ t fc p store, process d tx s = t ∧ d (s.rxByte 1) (s.rxSlice 2 (s.len - 2)) s.store = (fc, p, store) ∧
        t = { s with
          txbuf := t.txbuf
          txlen := min p.length 252 + 4
          store := store
          sent := if s.rxByte 0 ≠ 0#8 ∨ tx = true then s.sent ++ [t.txFrame] else s.sent
          len := 0
          rxState := .idle } ∧
        t.txFrame = crcAppend (s.rxByte 0 :: fc :: p.take 252) ∧
        4 ≤ t.txlen ∧ t.txlen ≤ 256 ∧ crcCheck t.txFrame = true ∧
        (∀ i, t.txlen ≤ i → t.txByte i = s.txByte i)) ∧
    (¬ (4 ≤ s.len ∧ crc16 s.rxFrame = 0#16 ∧ (s.rxByte 0 = s.addr ∨ s.rxByte 0 = 0#8)) →
      process d tx s = { s with len := 0, rxState := .idle })

/-- 10_state.md R23: no rule reads a cell of RXBUF at index LEN or above; what such cells hold cannot be observed. -/
def Obligations.StaleCellsAreNeverRead : Prop :=
  ∀ (s t : State) (m : Memory), (∀ i, i < s.len → Memory.read? m i = Memory.read? s.rxbuf i) →
    exec .prc s = .next t → exec .prc { s with rxbuf := m } = .next { t with rxbuf := m }

/-! ### Frames of the operations that leave a result only -/

/-- 30_encoding.md section 6 (R82): the operations of the CRC engine and the validator's checks, a read and the default arm
change no register, no memory, no flag: only the latch of their result (assumption log 4). That VAL.LEN, VAL.CRC and VAL.ADDR
executed alone leave LEN and STATE where they answer discard is the model's choice (assumption log 13). -/
def Obligations.PureOperationsChangeOnlyTheirLatch : Prop :=
  ∀ (s t : State) (i : Instr),
    (i = .crcInit ∨ (∃ c, i = .crcBit c) ∨ (∃ c b, i = .crcByte c b) ∨ (∃ bs, i = .crcBlk bs) ∨
      (∃ bs, i = .crcChk bs) ∨ (∃ bs, i = .crcApp bs) ∨ i = .valLen ∨ i = .valCrc ∨ i = .valAddr ∨ i = .valPdu ∨
      (∃ d, i = .rhr d) ∨ (∃ fc d, i = .fcx fc d)) →
    exec i s = .next t → t = { s with latch := t.latch }

/-- 20_memory.md section 9 (R65): every address reads as before, in both buffers and the store, after an operation that
stores nothing there. -/
def Obligations.NonStoringOperationsLeaveMemory : Prop :=
  ∀ (s t : State) (i : Instr),
    ((∃ a r, i = .cfg a r) ∨ i = .tck ∨ (∃ r, i = .tmrCfg r) ∨ i = .tmrLoad ∨ i = .tmrDec ∨ i = .rxExpire ∨
      (∃ b, i = .rxDrop b) ∨ i = .discard ∨ i = .rel ∨ (∃ a, i = .snd a)) →
    exec i s = .next t →
      (∀ j, t.rxByte j = s.rxByte j) ∧ (∀ j, t.txByte j = s.txByte j) ∧ t.store = s.store
end

