-- ==== Sys2Proof/Laws/Memory.lean ====
section
/-! SUPPORT. The laws of the byte buffers: what a read gives after a write, and that every write keeps the canonical
form. -/

namespace Sys2Proof.Machine

@[simp] theorem Memory.read?_nil (i : Nat) : Memory.read? [] i = none := rfl

/-- A read after a write: the byte written at that cell, what was there at any other. -/
theorem Memory.read?_write (m : Memory) (i j : Nat) (b : Byte) :
    Memory.read? (Memory.write m i b) j = if i = j then some b else Memory.read? m j := by
  induction m with
  | nil => simp [Memory.write, Memory.read?]
  | cons c m ih =>
    obtain ⟨k, v⟩ := c
    simp only [Memory.write]
    split
    · simp only [Memory.read?]
    · split
      · subst_vars
        simp only [Memory.read?]
        split <;> rfl
      · simp only [Memory.read?, ih]
        split <;> split <;> first | rfl | omega

@[simp] theorem Memory.read?_write_same (m : Memory) (i : Nat) (b : Byte) :
    Memory.read? (Memory.write m i b) i = some b := by
  simp [Memory.read?_write]

theorem Memory.read?_write_other (m : Memory) {i j : Nat} (b : Byte) (h : i ≠ j) :
    Memory.read? (Memory.write m i b) j = Memory.read? m j := by
  simp [Memory.read?_write, h]

/-- A read after consecutive writes: inside the range the byte written there, outside it what was there. -/
theorem Memory.read?_writeBytes (bs : List Byte) (m : Memory) (i j : Nat) :
    Memory.read? (Memory.writeBytes m i bs) j =
      if i ≤ j ∧ j < i + bs.length then bs[j - i]? else Memory.read? m j := by
  induction bs generalizing m i with
  | nil =>
    have h : ¬ (i ≤ j ∧ j < i + ([] : List Byte).length) := by simp only [List.length_nil]; omega
    rw [if_neg h, Memory.writeBytes]
  | cons b bs ih =>
    simp only [Memory.writeBytes, ih, Memory.read?_write, List.length_cons]
    by_cases h1 : i = j
    · subst h1
      have h2 : ¬ (i + 1 ≤ i ∧ i < i + 1 + bs.length) := by omega
      have h3 : i ≤ i ∧ i < i + (bs.length + 1) := by omega
      simp
    · by_cases h2 : i + 1 ≤ j ∧ j < i + 1 + bs.length
      · have h3 : i ≤ j ∧ j < i + (bs.length + 1) := by omega
        have h4 : j - i = (j - (i + 1)) + 1 := by omega
        rw [if_pos h2, if_pos h3, h4, List.getElem?_cons_succ]
      · have h3 : ¬ (i ≤ j ∧ j < i + (bs.length + 1)) := by omega
        rw [if_neg h2, if_neg h3, if_neg h1]

/-- The canonical form as a relation between any two entries. -/
theorem Memory.rising_iff (m : Memory) : Memory.rising m = true ↔ m.Pairwise (fun c d => c.1 < d.1) := by
  induction m with
  | nil => simp [Memory.rising]
  | cons c m ih =>
    cases m with
    | nil => simp [Memory.rising]
    | cons d m =>
      simp only [Memory.rising, Bool.and_eq_true, decide_eq_true_eq, ih]
      constructor
      · rintro ⟨h, hp⟩
        refine List.Pairwise.cons ?_ hp
        intro e he
        rcases List.mem_cons.mp he with rfl | he
        · exact h
        · exact Nat.lt_trans h (List.rel_of_pairwise_cons hp he)
      · intro h
        exact ⟨List.rel_of_pairwise_cons h (List.mem_cons_self ..), h.of_cons⟩

theorem Memory.mem_write {m : Memory} {i : Nat} {b : Byte} {c : Host.Cell} (h : c ∈ Memory.write m i b) :
    c = (i, b) ∨ c ∈ m := by
  induction m with
  | nil => simpa [Memory.write] using h
  | cons d m ih =>
    obtain ⟨k, v⟩ := d
    simp only [Memory.write] at h
    split at h
    · rcases List.mem_cons.mp h with h | h
      · exact .inl h
      · exact .inr h
    · split at h
      · rcases List.mem_cons.mp h with h | h
        · exact .inl h
        · exact .inr (List.mem_cons_of_mem _ h)
      · rcases List.mem_cons.mp h with h | h
        · exact .inr (h ▸ List.mem_cons_self ..)
        · rcases ih h with h | h
          · exact .inl h
          · exact .inr (List.mem_cons_of_mem _ h)

theorem Memory.pairwise_write {m : Memory} (i : Nat) (b : Byte) (h : m.Pairwise (fun c d => c.1 < d.1)) :
    (Memory.write m i b).Pairwise (fun c d => c.1 < d.1) := by
  induction m with
  | nil => simp [Memory.write]
  | cons d m ih =>
    obtain ⟨k, v⟩ := d
    have hall : ∀ c ∈ m, k < c.1 := fun c hc => List.rel_of_pairwise_cons h hc
    simp only [Memory.write]
    split
    · rename_i hik
      refine List.Pairwise.cons ?_ h
      intro c hc
      rcases List.mem_cons.mp hc with rfl | hc
      · exact hik
      · exact Nat.lt_trans hik (hall c hc)
    · split
      · rename_i hik
        refine List.Pairwise.cons ?_ h.of_cons
        intro c hc
        exact hik ▸ hall c hc
      · rename_i h1 h2
        refine List.Pairwise.cons ?_ (ih h.of_cons)
        intro c hc
        rcases Memory.mem_write hc with rfl | hc
        · show k < i
          omega
        · exact hall c hc

/-- A write inside the buffer keeps the canonical form. -/
theorem Memory.wf_write {m : Memory} {i : Nat} (b : Byte) (h : Memory.wf m = true) (hi : i < 256) :
    Memory.wf (Memory.write m i b) = true := by
  simp only [Memory.wf, Bool.and_eq_true, List.all_eq_true, decide_eq_true_eq, Memory.rising_iff] at h ⊢
  refine ⟨Memory.pairwise_write i b h.1, ?_⟩
  intro c hc
  rcases Memory.mem_write hc with rfl | hc
  · exact hi
  · exact h.2 c hc

/-- Consecutive writes inside the buffer keep the canonical form. -/
theorem Memory.wf_writeBytes (bs : List Byte) {m : Memory} {i : Nat} (h : Memory.wf m = true)
    (hi : i + bs.length ≤ 256) : Memory.wf (Memory.writeBytes m i bs) = true := by
  induction bs generalizing m i with
  | nil => exact h
  | cons b bs ih =>
    simp only [List.length_cons] at hi
    exact ih (Memory.wf_write b h (by omega)) (by omega)

theorem Memory.wf_nil : Memory.wf [] = true := by decide

/-- A cell that has been written since the last reset reads as its byte, whatever the unspecified contents. -/
theorem cellValue_of_read {m : Memory} {i : Nat} {b : Byte} (r : Nat) (sp : Space) (h : Memory.read? m i = some b) :
    cellValue r sp m i = b := by
  simp [cellValue, h]

/-- The cell written reads as the byte, every other cell as before. -/
theorem cellValue_write (r : Nat) (sp : Space) (m : Memory) (i j : Nat) (b : Byte) :
    cellValue r sp (Memory.write m i b) j = if i = j then b else cellValue r sp m j := by
  simp only [cellValue, Memory.read?_write]
  split <;> rfl

/-- A slice of a buffer just written from its start is what was written. -/
theorem slice_writeBytes (r : Nat) (sp : Space) (m : Memory) (bs : List Byte) :
    (List.range' 0 bs.length).map (cellValue r sp (Memory.writeBytes m 0 bs)) = bs := by
  apply List.ext_getElem
  · simp
  · intro i h1 h2
    simp [cellValue, Memory.read?_writeBytes, h2]

@[simp] theorem State.rxSlice_length (s : State) (a b : Nat) : (s.rxSlice a b).length = b - a := by
  simp [State.rxSlice]

@[simp] theorem State.txSlice_length (s : State) (a b : Nat) : (s.txSlice a b).length = b - a := by
  simp [State.txSlice]

@[simp] theorem State.rxFrame_length (s : State) : s.rxFrame.length = s.len := by
  simp [State.rxFrame]

@[simp] theorem State.txFrame_length (s : State) : s.txFrame.length = s.txlen := by
  simp [State.txFrame]

theorem State.rxSlice_getElem? (s : State) {a b i : Nat} (h : i < b - a) :
    (s.rxSlice a b)[i]? = some (s.rxByte (a + i)) := by
  simp [State.rxSlice, h]

end Sys2Proof.Machine
end

