-- ==== Sys2Proof/Laws/State.lean ====
section
/-! SUPPORT. One lemma per field per update of State, true by rfl, so that no later proof unfolds a record update. -/

namespace Sys2Proof.Machine

@[simp] theorem State.loadTimer_rxState (s : State) : s.loadTimer.rxState = s.rxState := rfl
@[simp] theorem State.loadTimer_addr (s : State) : s.loadTimer.addr = s.addr := rfl
@[simp] theorem State.loadTimer_thr (s : State) : s.loadTimer.thr = s.thr := rfl
@[simp] theorem State.loadTimer_len (s : State) : s.loadTimer.len = s.len := rfl
@[simp] theorem State.loadTimer_cnt (s : State) : s.loadTimer.cnt = s.thr := rfl
@[simp] theorem State.loadTimer_txlen (s : State) : s.loadTimer.txlen = s.txlen := rfl
@[simp] theorem State.loadTimer_rxbuf (s : State) : s.loadTimer.rxbuf = s.rxbuf := rfl
@[simp] theorem State.loadTimer_txbuf (s : State) : s.loadTimer.txbuf = s.txbuf := rfl
@[simp] theorem State.loadTimer_store (s : State) : s.loadTimer.store = s.store := rfl
@[simp] theorem State.loadTimer_sent (s : State) : s.loadTimer.sent = s.sent := rfl
@[simp] theorem State.loadTimer_status (s : State) : s.loadTimer.status = s.status := rfl
@[simp] theorem State.loadTimer_inbox (s : State) : s.loadTimer.inbox = s.inbox := rfl
@[simp] theorem State.loadTimer_resets (s : State) : s.loadTimer.resets = s.resets := rfl
@[simp] theorem State.loadTimer_latch (s : State) : s.loadTimer.latch = s.latch := rfl

@[simp] theorem State.storeByte_rxState (s : State) (b : Byte) : (s.storeByte b).rxState = s.rxState := rfl
@[simp] theorem State.storeByte_addr (s : State) (b : Byte) : (s.storeByte b).addr = s.addr := rfl
@[simp] theorem State.storeByte_thr (s : State) (b : Byte) : (s.storeByte b).thr = s.thr := rfl
@[simp] theorem State.storeByte_len (s : State) (b : Byte) : (s.storeByte b).len = s.len + 1 := rfl
@[simp] theorem State.storeByte_cnt (s : State) (b : Byte) : (s.storeByte b).cnt = s.cnt := rfl
@[simp] theorem State.storeByte_txlen (s : State) (b : Byte) : (s.storeByte b).txlen = s.txlen := rfl
@[simp] theorem State.storeByte_rxbuf (s : State) (b : Byte) : (s.storeByte b).rxbuf = Memory.write s.rxbuf s.len b := rfl
@[simp] theorem State.storeByte_txbuf (s : State) (b : Byte) : (s.storeByte b).txbuf = s.txbuf := rfl
@[simp] theorem State.storeByte_store (s : State) (b : Byte) : (s.storeByte b).store = s.store := rfl
@[simp] theorem State.storeByte_sent (s : State) (b : Byte) : (s.storeByte b).sent = s.sent := rfl
@[simp] theorem State.storeByte_status (s : State) (b : Byte) : (s.storeByte b).status = s.status := rfl
@[simp] theorem State.storeByte_inbox (s : State) (b : Byte) : (s.storeByte b).inbox = s.inbox := rfl
@[simp] theorem State.storeByte_resets (s : State) (b : Byte) : (s.storeByte b).resets = s.resets := rfl
@[simp] theorem State.storeByte_latch (s : State) (b : Byte) : (s.storeByte b).latch = s.latch := rfl

@[simp] theorem State.expire_rxState (s : State) : s.expire.rxState = s.rxState.onExpiry := rfl
@[simp] theorem State.expire_addr (s : State) : s.expire.addr = s.addr := rfl
@[simp] theorem State.expire_thr (s : State) : s.expire.thr = s.thr := rfl
@[simp] theorem State.expire_len (s : State) : s.expire.len = s.len := rfl
@[simp] theorem State.expire_cnt (s : State) : s.expire.cnt = s.cnt := rfl
@[simp] theorem State.expire_txlen (s : State) : s.expire.txlen = s.txlen := rfl
@[simp] theorem State.expire_rxbuf (s : State) : s.expire.rxbuf = s.rxbuf := rfl
@[simp] theorem State.expire_txbuf (s : State) : s.expire.txbuf = s.txbuf := rfl
@[simp] theorem State.expire_store (s : State) : s.expire.store = s.store := rfl
@[simp] theorem State.expire_sent (s : State) : s.expire.sent = s.sent := rfl
@[simp] theorem State.expire_status (s : State) : s.expire.status = s.status := rfl
@[simp] theorem State.expire_inbox (s : State) : s.expire.inbox = s.inbox := rfl
@[simp] theorem State.expire_resets (s : State) : s.expire.resets = s.resets := rfl
@[simp] theorem State.expire_latch (s : State) : s.expire.latch = s.latch := rfl

@[simp] theorem State.release_rxState (s : State) : s.release.rxState = .idle := rfl
@[simp] theorem State.release_addr (s : State) : s.release.addr = s.addr := rfl
@[simp] theorem State.release_thr (s : State) : s.release.thr = s.thr := rfl
@[simp] theorem State.release_len (s : State) : s.release.len = 0 := rfl
@[simp] theorem State.release_cnt (s : State) : s.release.cnt = s.cnt := rfl
@[simp] theorem State.release_txlen (s : State) : s.release.txlen = s.txlen := rfl
@[simp] theorem State.release_rxbuf (s : State) : s.release.rxbuf = s.rxbuf := rfl
@[simp] theorem State.release_txbuf (s : State) : s.release.txbuf = s.txbuf := rfl
@[simp] theorem State.release_store (s : State) : s.release.store = s.store := rfl
@[simp] theorem State.release_sent (s : State) : s.release.sent = s.sent := rfl
@[simp] theorem State.release_status (s : State) : s.release.status = s.status := rfl
@[simp] theorem State.release_inbox (s : State) : s.release.inbox = s.inbox := rfl
@[simp] theorem State.release_resets (s : State) : s.release.resets = s.resets := rfl
@[simp] theorem State.release_latch (s : State) : s.release.latch = s.latch := rfl

@[simp] theorem State.sendBytes_rxState (s : State) (bytes : List Byte) : (s.sendBytes bytes).rxState = s.rxState := rfl
@[simp] theorem State.sendBytes_addr (s : State) (bytes : List Byte) : (s.sendBytes bytes).addr = s.addr := rfl
@[simp] theorem State.sendBytes_thr (s : State) (bytes : List Byte) : (s.sendBytes bytes).thr = s.thr := rfl
@[simp] theorem State.sendBytes_len (s : State) (bytes : List Byte) : (s.sendBytes bytes).len = s.len := rfl
@[simp] theorem State.sendBytes_cnt (s : State) (bytes : List Byte) : (s.sendBytes bytes).cnt = s.cnt := rfl
@[simp] theorem State.sendBytes_txlen (s : State) (bytes : List Byte) : (s.sendBytes bytes).txlen = s.txlen := rfl
@[simp] theorem State.sendBytes_rxbuf (s : State) (bytes : List Byte) : (s.sendBytes bytes).rxbuf = s.rxbuf := rfl
@[simp] theorem State.sendBytes_txbuf (s : State) (bytes : List Byte) : (s.sendBytes bytes).txbuf = s.txbuf := rfl
@[simp] theorem State.sendBytes_store (s : State) (bytes : List Byte) : (s.sendBytes bytes).store = s.store := rfl
@[simp] theorem State.sendBytes_sent (s : State) (bytes : List Byte) : (s.sendBytes bytes).sent = s.sent ++ [bytes] := rfl
@[simp] theorem State.sendBytes_status (s : State) (bytes : List Byte) : (s.sendBytes bytes).status = s.status := rfl
@[simp] theorem State.sendBytes_inbox (s : State) (bytes : List Byte) : (s.sendBytes bytes).inbox = s.inbox := rfl
@[simp] theorem State.sendBytes_resets (s : State) (bytes : List Byte) : (s.sendBytes bytes).resets = s.resets := rfl
@[simp] theorem State.sendBytes_latch (s : State) (bytes : List Byte) : (s.sendBytes bytes).latch = s.latch := rfl

@[simp] theorem State.withStore_rxState (s : State) (store : List Word) : (s.withStore store).rxState = s.rxState := rfl
@[simp] theorem State.withStore_addr (s : State) (store : List Word) : (s.withStore store).addr = s.addr := rfl
@[simp] theorem State.withStore_thr (s : State) (store : List Word) : (s.withStore store).thr = s.thr := rfl
@[simp] theorem State.withStore_len (s : State) (store : List Word) : (s.withStore store).len = s.len := rfl
@[simp] theorem State.withStore_cnt (s : State) (store : List Word) : (s.withStore store).cnt = s.cnt := rfl
@[simp] theorem State.withStore_txlen (s : State) (store : List Word) : (s.withStore store).txlen = s.txlen := rfl
@[simp] theorem State.withStore_rxbuf (s : State) (store : List Word) : (s.withStore store).rxbuf = s.rxbuf := rfl
@[simp] theorem State.withStore_txbuf (s : State) (store : List Word) : (s.withStore store).txbuf = s.txbuf := rfl
@[simp] theorem State.withStore_store (s : State) (store : List Word) : (s.withStore store).store = store := rfl
@[simp] theorem State.withStore_sent (s : State) (store : List Word) : (s.withStore store).sent = s.sent := rfl
@[simp] theorem State.withStore_status (s : State) (store : List Word) : (s.withStore store).status = s.status := rfl
@[simp] theorem State.withStore_inbox (s : State) (store : List Word) : (s.withStore store).inbox = s.inbox := rfl
@[simp] theorem State.withStore_resets (s : State) (store : List Word) : (s.withStore store).resets = s.resets := rfl
@[simp] theorem State.withStore_latch (s : State) (store : List Word) : (s.withStore store).latch = s.latch := rfl

@[simp] theorem State.withInbox_rxState (s : State) (rest : List CmdWord) : (s.withInbox rest).rxState = s.rxState := rfl
@[simp] theorem State.withInbox_addr (s : State) (rest : List CmdWord) : (s.withInbox rest).addr = s.addr := rfl
@[simp] theorem State.withInbox_thr (s : State) (rest : List CmdWord) : (s.withInbox rest).thr = s.thr := rfl
@[simp] theorem State.withInbox_len (s : State) (rest : List CmdWord) : (s.withInbox rest).len = s.len := rfl
@[simp] theorem State.withInbox_cnt (s : State) (rest : List CmdWord) : (s.withInbox rest).cnt = s.cnt := rfl
@[simp] theorem State.withInbox_txlen (s : State) (rest : List CmdWord) : (s.withInbox rest).txlen = s.txlen := rfl
@[simp] theorem State.withInbox_rxbuf (s : State) (rest : List CmdWord) : (s.withInbox rest).rxbuf = s.rxbuf := rfl
@[simp] theorem State.withInbox_txbuf (s : State) (rest : List CmdWord) : (s.withInbox rest).txbuf = s.txbuf := rfl
@[simp] theorem State.withInbox_store (s : State) (rest : List CmdWord) : (s.withInbox rest).store = s.store := rfl
@[simp] theorem State.withInbox_sent (s : State) (rest : List CmdWord) : (s.withInbox rest).sent = s.sent := rfl
@[simp] theorem State.withInbox_status (s : State) (rest : List CmdWord) : (s.withInbox rest).status = s.status := rfl
@[simp] theorem State.withInbox_inbox (s : State) (rest : List CmdWord) : (s.withInbox rest).inbox = rest := rfl
@[simp] theorem State.withInbox_resets (s : State) (rest : List CmdWord) : (s.withInbox rest).resets = s.resets := rfl
@[simp] theorem State.withInbox_latch (s : State) (rest : List CmdWord) : (s.withInbox rest).latch = s.latch := rfl

@[simp] theorem State.accept_rxState (s : State) : s.accept.rxState = s.rxState := rfl
@[simp] theorem State.accept_addr (s : State) : s.accept.addr = s.addr := rfl
@[simp] theorem State.accept_thr (s : State) : s.accept.thr = s.thr := rfl
@[simp] theorem State.accept_len (s : State) : s.accept.len = s.len := rfl
@[simp] theorem State.accept_cnt (s : State) : s.accept.cnt = s.cnt := rfl
@[simp] theorem State.accept_txlen (s : State) : s.accept.txlen = s.txlen := rfl
@[simp] theorem State.accept_rxbuf (s : State) : s.accept.rxbuf = s.rxbuf := rfl
@[simp] theorem State.accept_txbuf (s : State) : s.accept.txbuf = s.txbuf := rfl
@[simp] theorem State.accept_store (s : State) : s.accept.store = s.store := rfl
@[simp] theorem State.accept_sent (s : State) : s.accept.sent = s.sent := rfl
@[simp] theorem State.accept_status (s : State) : s.accept.status = .accepted := rfl
@[simp] theorem State.accept_inbox (s : State) : s.accept.inbox = s.inbox := rfl
@[simp] theorem State.accept_resets (s : State) : s.accept.resets = s.resets := rfl
@[simp] theorem State.accept_latch (s : State) : s.accept.latch = s.latch := rfl

@[simp] theorem State.refuse_rxState (s : State) : s.refuse.rxState = s.rxState := rfl
@[simp] theorem State.refuse_addr (s : State) : s.refuse.addr = s.addr := rfl
@[simp] theorem State.refuse_thr (s : State) : s.refuse.thr = s.thr := rfl
@[simp] theorem State.refuse_len (s : State) : s.refuse.len = s.len := rfl
@[simp] theorem State.refuse_cnt (s : State) : s.refuse.cnt = s.cnt := rfl
@[simp] theorem State.refuse_txlen (s : State) : s.refuse.txlen = s.txlen := rfl
@[simp] theorem State.refuse_rxbuf (s : State) : s.refuse.rxbuf = s.rxbuf := rfl
@[simp] theorem State.refuse_txbuf (s : State) : s.refuse.txbuf = s.txbuf := rfl
@[simp] theorem State.refuse_store (s : State) : s.refuse.store = s.store := rfl
@[simp] theorem State.refuse_sent (s : State) : s.refuse.sent = s.sent := rfl
@[simp] theorem State.refuse_status (s : State) : s.refuse.status = .refused := rfl
@[simp] theorem State.refuse_inbox (s : State) : s.refuse.inbox = s.inbox := rfl
@[simp] theorem State.refuse_resets (s : State) : s.refuse.resets = s.resets := rfl
@[simp] theorem State.refuse_latch (s : State) : s.refuse.latch = s.latch := rfl

@[simp] theorem State.latchVerdict_rxState (s : State) (v : Verdict) : (s.latchVerdict v).rxState = s.rxState := rfl
@[simp] theorem State.latchVerdict_addr (s : State) (v : Verdict) : (s.latchVerdict v).addr = s.addr := rfl
@[simp] theorem State.latchVerdict_thr (s : State) (v : Verdict) : (s.latchVerdict v).thr = s.thr := rfl
@[simp] theorem State.latchVerdict_len (s : State) (v : Verdict) : (s.latchVerdict v).len = s.len := rfl
@[simp] theorem State.latchVerdict_cnt (s : State) (v : Verdict) : (s.latchVerdict v).cnt = s.cnt := rfl
@[simp] theorem State.latchVerdict_txlen (s : State) (v : Verdict) : (s.latchVerdict v).txlen = s.txlen := rfl
@[simp] theorem State.latchVerdict_rxbuf (s : State) (v : Verdict) : (s.latchVerdict v).rxbuf = s.rxbuf := rfl
@[simp] theorem State.latchVerdict_txbuf (s : State) (v : Verdict) : (s.latchVerdict v).txbuf = s.txbuf := rfl
@[simp] theorem State.latchVerdict_store (s : State) (v : Verdict) : (s.latchVerdict v).store = s.store := rfl
@[simp] theorem State.latchVerdict_sent (s : State) (v : Verdict) : (s.latchVerdict v).sent = s.sent := rfl
@[simp] theorem State.latchVerdict_status (s : State) (v : Verdict) : (s.latchVerdict v).status = s.status := rfl
@[simp] theorem State.latchVerdict_inbox (s : State) (v : Verdict) : (s.latchVerdict v).inbox = s.inbox := rfl
@[simp] theorem State.latchVerdict_resets (s : State) (v : Verdict) : (s.latchVerdict v).resets = s.resets := rfl
@[simp] theorem State.latchVerdict_latch (s : State) (v : Verdict) : (s.latchVerdict v).latch = { s.latch with verdict := v } := rfl

@[simp] theorem State.latchHandled_rxState (s : State) (h : Handled) : (s.latchHandled h).rxState = s.rxState := rfl
@[simp] theorem State.latchHandled_addr (s : State) (h : Handled) : (s.latchHandled h).addr = s.addr := rfl
@[simp] theorem State.latchHandled_thr (s : State) (h : Handled) : (s.latchHandled h).thr = s.thr := rfl
@[simp] theorem State.latchHandled_len (s : State) (h : Handled) : (s.latchHandled h).len = s.len := rfl
@[simp] theorem State.latchHandled_cnt (s : State) (h : Handled) : (s.latchHandled h).cnt = s.cnt := rfl
@[simp] theorem State.latchHandled_txlen (s : State) (h : Handled) : (s.latchHandled h).txlen = s.txlen := rfl
@[simp] theorem State.latchHandled_rxbuf (s : State) (h : Handled) : (s.latchHandled h).rxbuf = s.rxbuf := rfl
@[simp] theorem State.latchHandled_txbuf (s : State) (h : Handled) : (s.latchHandled h).txbuf = s.txbuf := rfl
@[simp] theorem State.latchHandled_store (s : State) (h : Handled) : (s.latchHandled h).store = h.storeAfter s.store := rfl
@[simp] theorem State.latchHandled_sent (s : State) (h : Handled) : (s.latchHandled h).sent = s.sent := rfl
@[simp] theorem State.latchHandled_status (s : State) (h : Handled) : (s.latchHandled h).status = s.status := rfl
@[simp] theorem State.latchHandled_inbox (s : State) (h : Handled) : (s.latchHandled h).inbox = s.inbox := rfl
@[simp] theorem State.latchHandled_resets (s : State) (h : Handled) : (s.latchHandled h).resets = s.resets := rfl
@[simp] theorem State.latchHandled_latch (s : State) (h : Handled) : (s.latchHandled h).latch = { s.latch with handled := h.result } := rfl

@[simp] theorem State.build_rxState (s : State) (a fc : Byte) (payload : List Byte) : (s.build a fc payload).rxState = s.rxState := rfl
@[simp] theorem State.build_addr (s : State) (a fc : Byte) (payload : List Byte) : (s.build a fc payload).addr = s.addr := rfl
@[simp] theorem State.build_thr (s : State) (a fc : Byte) (payload : List Byte) : (s.build a fc payload).thr = s.thr := rfl
@[simp] theorem State.build_len (s : State) (a fc : Byte) (payload : List Byte) : (s.build a fc payload).len = s.len := rfl
@[simp] theorem State.build_cnt (s : State) (a fc : Byte) (payload : List Byte) : (s.build a fc payload).cnt = s.cnt := rfl
@[simp] theorem State.build_txlen (s : State) (a fc : Byte) (payload : List Byte) : (s.build a fc payload).txlen = (truncate payload).length + 4 := rfl
@[simp] theorem State.build_rxbuf (s : State) (a fc : Byte) (payload : List Byte) : (s.build a fc payload).rxbuf = s.rxbuf := rfl
@[simp] theorem State.build_txbuf (s : State) (a fc : Byte) (payload : List Byte) : (s.build a fc payload).txbuf = Memory.writeBytes s.txbuf 0 (response a fc payload) := rfl
@[simp] theorem State.build_store (s : State) (a fc : Byte) (payload : List Byte) : (s.build a fc payload).store = s.store := rfl
@[simp] theorem State.build_sent (s : State) (a fc : Byte) (payload : List Byte) : (s.build a fc payload).sent = s.sent := rfl
@[simp] theorem State.build_status (s : State) (a fc : Byte) (payload : List Byte) : (s.build a fc payload).status = s.status := rfl
@[simp] theorem State.build_inbox (s : State) (a fc : Byte) (payload : List Byte) : (s.build a fc payload).inbox = s.inbox := rfl
@[simp] theorem State.build_resets (s : State) (a fc : Byte) (payload : List Byte) : (s.build a fc payload).resets = s.resets := rfl
@[simp] theorem State.build_latch (s : State) (a fc : Byte) (payload : List Byte) : (s.build a fc payload).latch = s.latch := rfl

@[simp] theorem State.issue_rxState (s : State) (w : CmdWord) : (s.issue w).rxState = s.rxState := rfl
@[simp] theorem State.issue_addr (s : State) (w : CmdWord) : (s.issue w).addr = s.addr := rfl
@[simp] theorem State.issue_thr (s : State) (w : CmdWord) : (s.issue w).thr = s.thr := rfl
@[simp] theorem State.issue_len (s : State) (w : CmdWord) : (s.issue w).len = s.len := rfl
@[simp] theorem State.issue_cnt (s : State) (w : CmdWord) : (s.issue w).cnt = s.cnt := rfl
@[simp] theorem State.issue_txlen (s : State) (w : CmdWord) : (s.issue w).txlen = s.txlen := rfl
@[simp] theorem State.issue_rxbuf (s : State) (w : CmdWord) : (s.issue w).rxbuf = s.rxbuf := rfl
@[simp] theorem State.issue_txbuf (s : State) (w : CmdWord) : (s.issue w).txbuf = s.txbuf := rfl
@[simp] theorem State.issue_store (s : State) (w : CmdWord) : (s.issue w).store = s.store := rfl
@[simp] theorem State.issue_sent (s : State) (w : CmdWord) : (s.issue w).sent = s.sent := rfl
@[simp] theorem State.issue_status (s : State) (w : CmdWord) : (s.issue w).status = s.status := rfl
@[simp] theorem State.issue_inbox (s : State) (w : CmdWord) : (s.issue w).inbox = w :: s.inbox := rfl
@[simp] theorem State.issue_resets (s : State) (w : CmdWord) : (s.issue w).resets = s.resets := rfl
@[simp] theorem State.issue_latch (s : State) (w : CmdWord) : (s.issue w).latch = s.latch := rfl

@[simp] theorem resetCore_rxState (s : State) : (resetCore s).rxState = .init := rfl
@[simp] theorem resetCore_addr (s : State) : (resetCore s).addr = 0 := rfl
@[simp] theorem resetCore_thr (s : State) : (resetCore s).thr = 0 := rfl
@[simp] theorem resetCore_len (s : State) : (resetCore s).len = 0 := rfl
@[simp] theorem resetCore_cnt (s : State) : (resetCore s).cnt = 0 := rfl
@[simp] theorem resetCore_txlen (s : State) : (resetCore s).txlen = 0 := rfl
@[simp] theorem resetCore_rxbuf (s : State) : (resetCore s).rxbuf = [] := rfl
@[simp] theorem resetCore_txbuf (s : State) : (resetCore s).txbuf = [] := rfl
@[simp] theorem resetCore_store (s : State) : (resetCore s).store = s.store := rfl
@[simp] theorem resetCore_sent (s : State) : (resetCore s).sent = s.sent := rfl
@[simp] theorem resetCore_status (s : State) : (resetCore s).status = s.status := rfl
@[simp] theorem resetCore_inbox (s : State) : (resetCore s).inbox = s.inbox := rfl
@[simp] theorem resetCore_resets (s : State) : (resetCore s).resets = s.resets + 1 := rfl
@[simp] theorem resetCore_latch (s : State) : (resetCore s).latch = s.latch := rfl

@[simp] theorem configure_rxState (s : State) (a : Byte) (thr : Nat) : (configure a thr s).rxState = .init := rfl
@[simp] theorem configure_addr (s : State) (a : Byte) (thr : Nat) : (configure a thr s).addr = a := rfl
@[simp] theorem configure_thr (s : State) (a : Byte) (thr : Nat) : (configure a thr s).thr = thr := rfl
@[simp] theorem configure_len (s : State) (a : Byte) (thr : Nat) : (configure a thr s).len = 0 := rfl
@[simp] theorem configure_cnt (s : State) (a : Byte) (thr : Nat) : (configure a thr s).cnt = thr := rfl
@[simp] theorem configure_txlen (s : State) (a : Byte) (thr : Nat) : (configure a thr s).txlen = s.txlen := rfl
@[simp] theorem configure_rxbuf (s : State) (a : Byte) (thr : Nat) : (configure a thr s).rxbuf = s.rxbuf := rfl
@[simp] theorem configure_txbuf (s : State) (a : Byte) (thr : Nat) : (configure a thr s).txbuf = s.txbuf := rfl
@[simp] theorem configure_store (s : State) (a : Byte) (thr : Nat) : (configure a thr s).store = s.store := rfl
@[simp] theorem configure_sent (s : State) (a : Byte) (thr : Nat) : (configure a thr s).sent = s.sent := rfl
@[simp] theorem configure_status (s : State) (a : Byte) (thr : Nat) : (configure a thr s).status = s.status := rfl
@[simp] theorem configure_inbox (s : State) (a : Byte) (thr : Nat) : (configure a thr s).inbox = s.inbox := rfl
@[simp] theorem configure_resets (s : State) (a : Byte) (thr : Nat) : (configure a thr s).resets = s.resets := rfl
@[simp] theorem configure_latch (s : State) (a : Byte) (thr : Nat) : (configure a thr s).latch = s.latch := rfl

@[simp] theorem rxStart_rxState (s : State) (b : Byte) : (rxStart b s).rxState = .receiving := rfl
@[simp] theorem rxStart_addr (s : State) (b : Byte) : (rxStart b s).addr = s.addr := rfl
@[simp] theorem rxStart_thr (s : State) (b : Byte) : (rxStart b s).thr = s.thr := rfl
@[simp] theorem rxStart_len (s : State) (b : Byte) : (rxStart b s).len = 1 := rfl
@[simp] theorem rxStart_cnt (s : State) (b : Byte) : (rxStart b s).cnt = s.thr := rfl
@[simp] theorem rxStart_txlen (s : State) (b : Byte) : (rxStart b s).txlen = s.txlen := rfl
@[simp] theorem rxStart_rxbuf (s : State) (b : Byte) : (rxStart b s).rxbuf = Memory.write s.rxbuf 0 b := rfl
@[simp] theorem rxStart_txbuf (s : State) (b : Byte) : (rxStart b s).txbuf = s.txbuf := rfl
@[simp] theorem rxStart_store (s : State) (b : Byte) : (rxStart b s).store = s.store := rfl
@[simp] theorem rxStart_sent (s : State) (b : Byte) : (rxStart b s).sent = s.sent := rfl
@[simp] theorem rxStart_status (s : State) (b : Byte) : (rxStart b s).status = s.status := rfl
@[simp] theorem rxStart_inbox (s : State) (b : Byte) : (rxStart b s).inbox = s.inbox := rfl
@[simp] theorem rxStart_resets (s : State) (b : Byte) : (rxStart b s).resets = s.resets := rfl
@[simp] theorem rxStart_latch (s : State) (b : Byte) : (rxStart b s).latch = s.latch := rfl

@[simp] theorem rxAppend_rxState (s : State) (b : Byte) : (rxAppend b s).rxState = s.rxState := rfl
@[simp] theorem rxAppend_addr (s : State) (b : Byte) : (rxAppend b s).addr = s.addr := rfl
@[simp] theorem rxAppend_thr (s : State) (b : Byte) : (rxAppend b s).thr = s.thr := rfl
@[simp] theorem rxAppend_len (s : State) (b : Byte) : (rxAppend b s).len = s.len + 1 := rfl
@[simp] theorem rxAppend_cnt (s : State) (b : Byte) : (rxAppend b s).cnt = s.thr := rfl
@[simp] theorem rxAppend_txlen (s : State) (b : Byte) : (rxAppend b s).txlen = s.txlen := rfl
@[simp] theorem rxAppend_rxbuf (s : State) (b : Byte) : (rxAppend b s).rxbuf = Memory.write s.rxbuf s.len b := rfl
@[simp] theorem rxAppend_txbuf (s : State) (b : Byte) : (rxAppend b s).txbuf = s.txbuf := rfl
@[simp] theorem rxAppend_store (s : State) (b : Byte) : (rxAppend b s).store = s.store := rfl
@[simp] theorem rxAppend_sent (s : State) (b : Byte) : (rxAppend b s).sent = s.sent := rfl
@[simp] theorem rxAppend_status (s : State) (b : Byte) : (rxAppend b s).status = s.status := rfl
@[simp] theorem rxAppend_inbox (s : State) (b : Byte) : (rxAppend b s).inbox = s.inbox := rfl
@[simp] theorem rxAppend_resets (s : State) (b : Byte) : (rxAppend b s).resets = s.resets := rfl
@[simp] theorem rxAppend_latch (s : State) (b : Byte) : (rxAppend b s).latch = s.latch := rfl

end Sys2Proof.Machine
end

