-- ==== Sys2Proof/Laws/Ops.lean ====
section
/-! SUPPORT. For each shared operation one lemma that says what it can do, which later proofs cite instead of unfolding
it. -/

namespace Sys2Proof.Machine

/-! ### Byte helpers -/

theorem be16_getLsbD (h l : Byte) (i : Nat) :
    (be16 h l).getLsbD i = if i < 8 then l.getLsbD i else h.getLsbD (i - 8) := BitVec.getLsbD_append

theorem hi8_be16 (h l : Byte) : hi8 (be16 h l) = h := by
  ext i hi
  simp [hi8, BitVec.getElem_extractLsb', be16_getLsbD, BitVec.getLsbD_eq_getElem hi]

theorem lo8_be16 (h l : Byte) : lo8 (be16 h l) = l := by
  ext i hi
  simp [lo8, BitVec.getElem_extractLsb', be16_getLsbD, hi]

theorem be16_toNat (h l : Byte) : (be16 h l).toNat = 256 * h.toNat + l.toNat := by
  have hl := l.isLt
  simp only [be16, BitVec.toNat_append]
  rw [← Nat.shiftLeft_add_eq_or_of_lt hl, Nat.shiftLeft_eq]
  omega

/-- A range resolves exactly when it lies wholly in the window. -/
theorem resolve_eq_some {nregs w n i : Nat} :
    resolve nregs w n = some i ↔ 40001 ≤ w + 1 ∧ w + 1 + n ≤ 40001 + nregs ∧ i = w + 1 - 40001 := by
  unfold resolve
  split <;> simp only [Config.regBase, Option.some.injEq, reduceCtorEq, false_iff] at * <;> omega

theorem resolve_eq_none {nregs w n : Nat} :
    resolve nregs w n = none ↔ ¬ (40001 ≤ w + 1 ∧ w + 1 + n ≤ 40001 + nregs) := by
  unfold resolve
  split <;> simp only [Config.regBase, reduceCtorEq, false_iff, true_iff] at * <;> omega

/-! ### CRC and response -/

@[simp] theorem crcAppend_length (bs : List Byte) : (crcAppend bs).length = bs.length + 2 := by
  simp [crcAppend]

theorem crc16_append (xs ys : List Byte) : crc16 (xs ++ ys) = ys.foldl crcByte (crc16 xs) := by
  simp [crc16]

@[simp] theorem response_length (a fc : Byte) (payload : List Byte) :
    (response a fc payload).length = min 252 payload.length + 4 := by
  simp [response, truncate]

theorem truncate_eq {payload : List Byte} (h : payload.length ≤ 252) : truncate payload = payload := by
  simpa [truncate] using h

/-- What BLD lays down is what the transport is given. -/
theorem State.build_txFrame (s : State) (a fc : Byte) (payload : List Byte) :
    (s.build a fc payload).txFrame = response a fc payload := by
  have h : (s.build a fc payload).txlen = (response a fc payload).length := by
    simp [response]
  show (List.range' 0 ((s.build a fc payload).txlen - 0)).map
    (cellValue s.resets .txbuf (Memory.writeBytes s.txbuf 0 (response a fc payload))) = _
  rw [h]
  exact slice_writeBytes _ _ _ _

/-! ### The receiver and the timer -/

/-- What a byte does, by receiver state and room. -/
theorem receive_cases (b : Byte) (s : State) :
    (s.rxState = .idle ∧ receive b s = rxStart b s) ∨
    (s.rxState = .receiving ∧ s.len < 256 ∧ receive b s = rxAppend b s) ∨
    ((s.rxState = .init ∨ s.rxState = .complete ∨ s.rxState = .receiving ∧ 256 ≤ s.len) ∧ receive b s = s) := by
  cases h : s.rxState
  · exact .inr (.inr ⟨.inl rfl, by simp [receive, h, rxDrop]⟩)
  · exact .inl ⟨rfl, by simp [receive, h]⟩
  · by_cases hl : s.len < 256
    · exact .inr (.inl ⟨rfl, hl, by simp [receive, h, hl]⟩)
    · exact .inr (.inr ⟨.inr (.inr ⟨rfl, by omega⟩), by simp [receive, h, hl, rxDrop]⟩)
  · exact .inr (.inr ⟨.inr (.inl rfl), by simp [receive, h, rxDrop]⟩)

/-- What a tick does, by the count. -/
theorem tick_cases (s : State) :
    (s.cnt = 0 ∧ tick s = s) ∨
    (s.cnt = 1 ∧ tick s = { s with cnt := 0, rxState := s.rxState.onExpiry }) ∨
    (2 ≤ s.cnt ∧ tick s = { s with cnt := s.cnt - 1 }) := by
  by_cases h0 : s.cnt = 0
  · exact .inl ⟨h0, by simp [tick, h0]⟩
  · by_cases h1 : s.cnt = 1
    · exact .inr (.inl ⟨h1, by simp [tick, h1, expiryOf, State.expire]⟩)
    · exact .inr (.inr ⟨by omega, by simp [tick, h0, h1, expiryOf]⟩)

/-! ### The conditions -/

@[simp] theorem State.frameReady_eq_true {s : State} : s.frameReady = true ↔ s.rxState = .complete := by
  simp [State.frameReady]

@[simp] theorem State.frameReady_eq_false {s : State} : s.frameReady = false ↔ s.rxState ≠ .complete := by
  simp [State.frameReady]

@[simp] theorem State.timerArmed_eq_true {s : State} : s.timerArmed = true ↔ s.cnt ≠ 0 := by
  simp [State.timerArmed]

@[simp] theorem State.timerArmed_eq_false {s : State} : s.timerArmed = false ↔ s.cnt = 0 := by
  unfold State.timerArmed; exact decide_eq_false_iff_not.trans not_not

/-! ### The engine -/

theorem valLen_eq_discard {n : Nat} : valLen n = .discard ↔ n < 4 := by
  unfold valLen
  split <;> simp_all

theorem valCrc_eq_discard {f : List Byte} : valCrc f = .discard ↔ crc16 f ≠ 0 := by
  unfold valCrc crcCheck
  split <;> simp_all

theorem valAddr_eq_discard {a own : Byte} : valAddr a own = .discard ↔ a ≠ own ∧ a ≠ 0 := by
  unfold valAddr
  rw [← not_or]
  split <;> simp_all

theorem validate_eq_none {s : State} :
    validate s = none ↔ s.len < 4 ∨ crc16 s.rxFrame ≠ 0 ∨ (s.rxByte 0 ≠ s.addr ∧ s.rxByte 0 ≠ 0) := by
  rw [← valLen_eq_discard, ← valCrc_eq_discard, ← valAddr_eq_discard]
  unfold validate
  split_ifs <;> simp_all

/-- The frame passes exactly when all three checks do. -/
theorem validate_eq_some {s : State} {p : Pdu} :
    validate s = some p ↔
      ¬ (s.len < 4 ∨ crc16 s.rxFrame ≠ 0 ∨ (s.rxByte 0 ≠ s.addr ∧ s.rxByte 0 ≠ 0)) ∧ p = valPdu s := by
  rw [← valLen_eq_discard, ← valCrc_eq_discard, ← valAddr_eq_discard]
  unfold validate
  split_ifs <;> simp_all [eq_comm]

/-- What PRC does: nothing outside COMPLETE; a silent discard; or a response built, perhaps sent, and the frame
released. -/
theorem process_cases (d : DispatchFn) (tx : Bool) (s : State) :
    (s.rxState ≠ .complete ∧ process d tx s = s) ∨
    (s.rxState = .complete ∧ validate s = none ∧ process d tx s = s.release) ∨
    (∃ p, s.rxState = .complete ∧ validate s = some p ∧
      process d tx s =
        (State.transmit tx ((s.withStore (d p.fc p.data s.store).2.2).build p.addr
          (d p.fc p.data s.store).1 (d p.fc p.data s.store).2.1) p.addr).release) := by
  by_cases h : s.rxState = .complete
  · cases hv : validate s with
    | none => exact .inr (.inl ⟨h, rfl, by simp [process, h, hv]⟩)
    | some p => exact .inr (.inr ⟨p, h, rfl, by simp [process, h, hv]⟩)
  · exact .inl ⟨h, by simp [process, h]⟩

/-- A response is handed over unless it answers a broadcast and BCAST_TX is false. -/
theorem State.transmit_cases (tx : Bool) (s : State) (a : Byte) :
    ((a ≠ 0 ∨ tx = true) ∧ State.transmit tx s a = s.sendBytes s.txFrame) ∨
    (a = 0 ∧ tx = false ∧ State.transmit tx s a = s) := by
  by_cases h : a ≠ Config.bcast ∨ tx = true
  · exact .inl ⟨h, by simp only [State.transmit, if_pos h]⟩
  · refine .inr ⟨by simpa using (not_or.mp h).1, by simpa using (not_or.mp h).2, ?_⟩
    simp only [State.transmit, if_neg h]

@[simp] theorem State.transmit_rxState (tx : Bool) (s : State) (a : Byte) : (State.transmit tx s a).rxState = s.rxState := by
  unfold State.transmit; split <;> rfl

@[simp] theorem State.transmit_addr (tx : Bool) (s : State) (a : Byte) : (State.transmit tx s a).addr = s.addr := by
  unfold State.transmit; split <;> rfl

@[simp] theorem State.transmit_thr (tx : Bool) (s : State) (a : Byte) : (State.transmit tx s a).thr = s.thr := by
  unfold State.transmit; split <;> rfl

@[simp] theorem State.transmit_len (tx : Bool) (s : State) (a : Byte) : (State.transmit tx s a).len = s.len := by
  unfold State.transmit; split <;> rfl

@[simp] theorem State.transmit_cnt (tx : Bool) (s : State) (a : Byte) : (State.transmit tx s a).cnt = s.cnt := by
  unfold State.transmit; split <;> rfl

@[simp] theorem State.transmit_txlen (tx : Bool) (s : State) (a : Byte) : (State.transmit tx s a).txlen = s.txlen := by
  unfold State.transmit; split <;> rfl

@[simp] theorem State.transmit_rxbuf (tx : Bool) (s : State) (a : Byte) : (State.transmit tx s a).rxbuf = s.rxbuf := by
  unfold State.transmit; split <;> rfl

@[simp] theorem State.transmit_txbuf (tx : Bool) (s : State) (a : Byte) : (State.transmit tx s a).txbuf = s.txbuf := by
  unfold State.transmit; split <;> rfl

@[simp] theorem State.transmit_store (tx : Bool) (s : State) (a : Byte) : (State.transmit tx s a).store = s.store := by
  unfold State.transmit; split <;> rfl

@[simp] theorem State.transmit_status (tx : Bool) (s : State) (a : Byte) : (State.transmit tx s a).status = s.status := by
  unfold State.transmit; split <;> rfl

@[simp] theorem State.transmit_inbox (tx : Bool) (s : State) (a : Byte) : (State.transmit tx s a).inbox = s.inbox := by
  unfold State.transmit; split <;> rfl

@[simp] theorem State.transmit_resets (tx : Bool) (s : State) (a : Byte) : (State.transmit tx s a).resets = s.resets := by
  unfold State.transmit; split <;> rfl

@[simp] theorem State.transmit_latch (tx : Bool) (s : State) (a : Byte) : (State.transmit tx s a).latch = s.latch := by
  unfold State.transmit; split <;> rfl

theorem State.transmit_sent (tx : Bool) (s : State) (a : Byte) :
    (State.transmit tx s a).sent = if a ≠ 0 ∨ tx = true then s.sent ++ [s.txFrame] else s.sent := by
  rcases State.transmit_cases tx s a with ⟨h, e⟩ | ⟨h, h', e⟩
  · rw [e, if_pos h]; rfl
  · rw [e, if_neg (by simp [h, h'])]

@[simp] theorem State.transmit_txFrame (tx : Bool) (s : State) (a : Byte) :
    (State.transmit tx s a).txFrame = s.txFrame := by
  unfold State.transmit; split <;> rfl

/-- How CFG's legality is decided. -/
theorem cfgThreshold_eq_some {a : Byte} {baud : BitVec 32} {thr : Nat} :
    cfgThreshold a baud = some thr ↔
      1 ≤ a.toNat ∧ a.toNat ≤ 247 ∧ 12 ≤ baud.toNat ∧ thr = thrOfBaud baud.toNat := by
  unfold cfgThreshold tmrCfg
  split_ifs <;>
    simp only [Config.addrMin, Config.addrMax, Config.baudMin, Option.some.injEq, false_iff] at * <;>
    omega

/-! ### The step -/

theorem State.takeCommand_nil {s : State} (h : s.inbox = []) : s.takeCommand = none := by
  simp [State.takeCommand, h]

theorem State.takeCommand_cons {s : State} {w : CmdWord} {rest : List CmdWord} (h : s.inbox = w :: rest) :
    s.takeCommand = some (w, (s.withInbox rest)) := by
  simp [State.takeCommand, h]

/-- The five commands are all that a command word decodes to. -/
theorem decodeCmd_cases {w : CmdWord} {i : Instr} (h : decodeCmd w = .ok i) :
    i = .rst ∨ (∃ a r, i = .cfg a r) ∨ (∃ b, i = .rxb b) ∨ i = .tck ∨ i = .prc := by
  unfold decodeCmd at h
  split at h <;> simp only [Except.ok.injEq, reduceCtorEq] at h <;> subst h <;> simp

/-- Everything a step can do: with no command, nothing; with a reserved code, a refusal; otherwise the effect of one of
the five commands on the state without it. -/
theorem step_cases (s : State) :
    (s.inbox = [] ∧ step s = .next s) ∨
    (∃ w rest, s.inbox = w :: rest ∧
      ((∃ e, decodeCmd w = .error e ∧ step s = .next ((s.withInbox rest).refuse)) ∨
       (decodeCmd w = .ok .rst ∧ step s = .next (resetCore (s.withInbox rest)).accept) ∨
       (∃ a r, decodeCmd w = .ok (.cfg a r) ∧ cfgThreshold a r = none ∧
          step s = .next ((s.withInbox rest).refuse)) ∨
       (∃ a r thr, decodeCmd w = .ok (.cfg a r) ∧ cfgThreshold a r = some thr ∧
          step s = .next (configure a thr (s.withInbox rest)).accept) ∨
       (∃ b, decodeCmd w = .ok (.rxb b) ∧ step s = .next (receive b (s.withInbox rest)).accept) ∨
       (decodeCmd w = .ok .tck ∧ step s = .next (tick (s.withInbox rest)).accept) ∨
       (decodeCmd w = .ok .prc ∧
          step s = .next (process (dsp Config.excBadLength) Config.bcastTx (s.withInbox rest)).accept))) := by
  cases hi : s.inbox with
  | nil => exact .inl ⟨rfl, by simp [step, State.takeCommand_nil hi]⟩
  | cons w rest =>
    refine .inr ⟨w, rest, rfl, ?_⟩
    cases hd : decodeCmd w with
    | error e => exact .inl ⟨e, rfl, by simp only [step, State.takeCommand_cons hi, decode, hd]⟩
    | ok i =>
      have hs : step s = exec i (s.withInbox rest) := by simp only [step, State.takeCommand_cons hi, decode, hd]
      rcases decodeCmd_cases hd with rfl | ⟨a, r, rfl⟩ | ⟨b, rfl⟩ | rfl | rfl
      · exact .inr (.inl ⟨rfl, hs⟩)
      · cases hc : cfgThreshold a r with
        | none => exact .inr (.inr (.inl ⟨a, r, rfl, hc, by simpa [exec, execCfg, hc] using hs⟩))
        | some thr => exact .inr (.inr (.inr (.inl ⟨a, r, thr, rfl, hc, by simpa [exec, execCfg, hc] using hs⟩)))
      · exact .inr (.inr (.inr (.inr (.inl ⟨b, rfl, hs⟩))))
      · exact .inr (.inr (.inr (.inr (.inr (.inl ⟨rfl, hs⟩)))))
      · exact .inr (.inr (.inr (.inr (.inr (.inr ⟨rfl, hs⟩)))))

/-- A program is run by running its first part and then the rest. -/
theorem execAll_append {is js : List Instr} {s t : State} (h : execAll is s = .next t) :
    execAll (is ++ js) s = execAll js t := by
  induction is generalizing s with
  | nil => simp only [execAll, Host.Outcome.next.injEq] at h; subst h; rfl
  | cons i is ih =>
    simp only [execAll, List.cons_append] at h ⊢
    cases he : exec i s with
    | next s' => simp only [he] at h ⊢; exact ih h
    | fault f => simp [he] at h
    | refused r => simp [he] at h

end Sys2Proof.Machine
end

