-- ==== Sys2Proof/Laws/PerInstr.lean ====
section
/-! SUPPORT. Facts of every instruction as syntax, one lemma per constructor. The family Layout: an instruction's code has
the format of its row in spec/opcode_table.json, with the row's fixed bits, and a micro-operation has none
(spec 30_encoding.md R79, R82, R85). -/

namespace Sys2Proof.Laws.Layout

/-- The bits a row of the opcode table fixes: a command's `op` (bits 43:40), a frame's function byte where the row has
one. -/
def tableBits : Instr → Option Nat
  | .rst => some 0
  | .cfg _ _ => some 1
  | .rxb _ => some 2
  | .tck => some 3
  | .prc => some 4
  | .rhr _ => some 3
  | .wsr _ => some 6
  | .fcx fc _ => some fc.toNat
  | .crcInit | .crcBit _ | .crcByte _ _ | .crcBlk _ | .crcChk _ | .crcApp _ => none
  | .tmrCfg _ | .tmrLoad | .tmrDec => none
  | .rxStart _ | .rxAppend _ | .rxDrop _ | .rxExpire => none
  | .valLen | .valCrc | .valAddr | .valPdu | .discard => none
  | .dsp _ _ | .bld _ _ _ | .snd _ | .rel => none

/-- The code is a command word with the row's `op`, or a PDU with the row's function byte, or there is none. -/
def Statement (i : Instr) : Prop :=
  match encode i with
  | some (.cmd w) => i.format = .cmd ∧ tableBits i = some (w.toNat / 2 ^ 40)
  | some (.pdu (fc :: _)) => i.format = .frame ∧ tableBits i = some fc.toNat
  | some (.pdu []) => False
  | none => i.format = .micro ∧ tableBits i = none

/-- The number of a command word from its fields (R79). -/
theorem mkCmd_toNat (op : BitVec 4) (b : Byte) (w : BitVec 32) :
    (mkCmd op b w).toNat = op.toNat * 2 ^ 40 + (b.toNat * 2 ^ 32 + w.toNat) := by
  have hb := b.isLt
  have hw := w.isLt
  have h1 : (b ++ w).toNat = b.toNat * 2 ^ 32 + w.toNat := by
    rw [BitVec.toNat_append, ← Nat.shiftLeft_add_eq_or_of_lt hw, Nat.shiftLeft_eq]
  have h2 : (mkCmd op b w).toNat = op.toNat <<< 40 ||| (b ++ w).toNat := BitVec.toNat_append op (b ++ w)
  rw [h2, ← Nat.shiftLeft_add_eq_or_of_lt (b := (b ++ w).toNat) (by omega), Nat.shiftLeft_eq, h1]

theorem mkCmd_op (op : BitVec 4) (b : Byte) (w : BitVec 32) : (mkCmd op b w).toNat / 2 ^ 40 = op.toNat := by
  have hb := b.isLt
  have hw := w.isLt
  rw [mkCmd_toNat]
  omega

theorem rst : Statement .rst := ⟨rfl, by rw [mkCmd_op]; rfl⟩
theorem cfg (a : Byte) (r : BitVec 32) : Statement (.cfg a r) := ⟨rfl, by rw [mkCmd_op]; rfl⟩
theorem rxb (b : Byte) : Statement (.rxb b) := ⟨rfl, by rw [mkCmd_op]; rfl⟩
theorem tck : Statement .tck := ⟨rfl, by rw [mkCmd_op]; rfl⟩
theorem prc : Statement .prc := ⟨rfl, by rw [mkCmd_op]; rfl⟩
theorem rhr (d : List Byte) : Statement (.rhr d) := ⟨rfl, rfl⟩
theorem wsr (d : List Byte) : Statement (.wsr d) := ⟨rfl, rfl⟩
theorem fcx (fc : Byte) (d : List Byte) : Statement (.fcx fc d) := ⟨rfl, rfl⟩
theorem crcInit : Statement .crcInit := ⟨rfl, rfl⟩
theorem crcBit (c : Word) : Statement (.crcBit c) := ⟨rfl, rfl⟩
theorem crcByte (c : Word) (b : Byte) : Statement (.crcByte c b) := ⟨rfl, rfl⟩
theorem crcBlk (bs : List Byte) : Statement (.crcBlk bs) := ⟨rfl, rfl⟩
theorem crcChk (bs : List Byte) : Statement (.crcChk bs) := ⟨rfl, rfl⟩
theorem crcApp (bs : List Byte) : Statement (.crcApp bs) := ⟨rfl, rfl⟩
theorem tmrCfg (r : BitVec 32) : Statement (.tmrCfg r) := ⟨rfl, rfl⟩
theorem tmrLoad : Statement .tmrLoad := ⟨rfl, rfl⟩
theorem tmrDec : Statement .tmrDec := ⟨rfl, rfl⟩
theorem rxStart (b : Byte) : Statement (.rxStart b) := ⟨rfl, rfl⟩
theorem rxAppend (b : Byte) : Statement (.rxAppend b) := ⟨rfl, rfl⟩
theorem rxDrop (b : Byte) : Statement (.rxDrop b) := ⟨rfl, rfl⟩
theorem rxExpire : Statement .rxExpire := ⟨rfl, rfl⟩
theorem valLen : Statement .valLen := ⟨rfl, rfl⟩
theorem valCrc : Statement .valCrc := ⟨rfl, rfl⟩
theorem valAddr : Statement .valAddr := ⟨rfl, rfl⟩
theorem valPdu : Statement .valPdu := ⟨rfl, rfl⟩
theorem discard : Statement .discard := ⟨rfl, rfl⟩
theorem dsp (fc : Byte) (d : List Byte) : Statement (.dsp fc d) := ⟨rfl, rfl⟩
theorem bld (a fc : Byte) (p : List Byte) : Statement (.bld a fc p) := ⟨rfl, rfl⟩
theorem snd (a : Byte) : Statement (.snd a) := ⟨rfl, rfl⟩
theorem rel : Statement .rel := ⟨rfl, rfl⟩

end Sys2Proof.Laws.Layout
end

