-- ==== Sys2Proof/Tests/Slice0.lean ====
section
/-! SUPPORT. The model's own tests. Expected values are those of spec/95_test_vectors.md (its vector's name is given) or
of the rule named; none is the model's answer. The second part gives, for every statement of
Certificates/Slice0/Obligations.lean that has hypotheses, states and operands that meet them. -/

namespace Sys2Proof.Tests

open Sys2Proof Sys2Proof.Machine

set_option Elab.async false

/-- Slave 1 at 9600 baud in IDLE, with the ten words of 95_test_vectors.md. -/
def sample : State :=
  { rxState := .idle, addr := 1, thr := 80, len := 0, cnt := 0, txlen := 0, rxbuf := [], txbuf := [],
    store := (List.range 10).map (fun i => BitVec.ofNat 16 (1900 + i)), sent := [], status := .accepted,
    inbox := [], resets := 0, latch := Latch.blank }

/-- The receiver in a given state with a given count, and these bytes in RXBUF. -/
def holding (st : RxState) (cnt : Nat) (frame : List Byte) : State :=
  { sample with rxState := st, cnt := cnt, len := frame.length, rxbuf := Memory.writeBytes [] 0 frame }

/-- A completed frame, its CRC appended. -/
def completed (bytes : List Byte) : State := holding .complete 0 (crcAppend bytes)

/-- What a fact of the next state comes to. -/
def after (r : Result) (p : State → Bool) : Bool :=
  match r with
  | .next t => p t
  | _ => false

/-! ### Well-formedness: one ill-formed instruction for each check, refused -/

theorem test_wf_refuses_long_rhr : (Instr.rhr (List.replicate 253 0)).wf = false := by decide +kernel
theorem test_wf_refuses_long_wsr : (Instr.wsr (List.replicate 253 0)).wf = false := by decide +kernel
theorem test_wf_refuses_long_fcx : (Instr.fcx 0x04 (List.replicate 253 0)).wf = false := by decide +kernel
theorem test_wf_refuses_long_dsp : (Instr.dsp 0x03 (List.replicate 253 0)).wf = false := by decide +kernel
theorem test_wf_refuses_fcx_of_rhr : (Instr.fcx 0x03 []).wf = false := by decide
theorem test_wf_refuses_fcx_of_wsr : (Instr.fcx 0x06 []).wf = false := by decide
theorem test_wf_takes_252_bytes : (Instr.rhr (List.replicate 252 0)).wf = true := by decide +kernel

/-! ### Decoding (section 2.8, R72 to R74, K9, K10): the words are written out from R79's fields -/

theorem test_decode_rst : decode (.cmd 0b0000_00000000_00000000000000000000000000000000#44) = .ok .rst := by decide
theorem test_decode_cfg : decode (.cmd 0b0001_00000001_00000000000000000010010110000000#44) = .ok (.cfg 1 9600) := by
  decide
theorem test_decode_cfg_fields :
    decode (.cmd 0b0001_11110111_00000000000000000000000000001100#44) = .ok (.cfg 247 12) := by decide
theorem test_decode_rxb : decode (.cmd 0b0010_00000001_00000000000000000000000000000000#44) = .ok (.rxb 0x01) := by
  decide
theorem test_decode_tck_ignores_fields : decode (.cmd 0x3FF12345678#44) = .ok .tck := by decide
theorem test_decode_prc : decode (.cmd 0b0100_00000000_00000000000000000000000000000000#44) = .ok .prc := by decide
theorem test_decode_reserved_5 : decode (.cmd 0x50000000000#44) = .error (.reservedOp 5) := by decide
theorem test_decode_reserved_15 : decode (.cmd 0xFFFFFFFFFFF#44) = .error (.reservedOp 15) := by decide
theorem test_decode_rhr : decode (.pdu [0x03, 0x9C, 0x41, 0x00, 0x02]) = .ok (.rhr [0x9C, 0x41, 0x00, 0x02]) := by
  decide
theorem test_decode_wsr : decode (.pdu [0x06, 0x9C, 0x40, 0x12, 0x34]) = .ok (.wsr [0x9C, 0x40, 0x12, 0x34]) := by
  decide
theorem test_decode_fcx : decode (.pdu [0x83, 0x00]) = .ok (.fcx 0x83 [0x00]) := by decide
theorem test_decode_empty_pdu : decode (.pdu []) = .error .emptyPdu := by decide
theorem test_decode_long_pdu : decode (.pdu (List.replicate 254 0x03)) = .error (.pduTooLong 253) := by decide +kernel
theorem test_encode_cfg : encode (.cfg 1 115200) = some (.cmd 0x1010001C200#44) := by decide
theorem test_encode_rxb : encode (.rxb 0xFF) = some (.cmd 0x2FF00000000#44) := by decide
theorem test_encode_micro : encode .tmrLoad = none := by decide

/-! ### The opcode table's rows, as the host asks for them -/

theorem test_table_rst : decodeTableWord 48 0 = some .rst := by decide
theorem test_table_cfg : decodeTableWord 48 0x10000000000 = some (.cfg 0 0) := by decide
theorem test_table_rhr : decodeTableWord 8 3 = some (.rhr [0, 0, 0, 0]) := by decide
theorem test_table_wsr : decodeTableWord 8 6 = some (.wsr [0, 0, 0, 0]) := by decide
theorem test_table_fcx : decodeTableWord 8 0 = some (.fcx 0 [0, 0, 0, 0]) := by decide
theorem test_table_micro : decodeTableWord 0 0 = none := by decide
theorem test_table_reserved : decodeTableWord 48 0x50000000000 = none := by decide

/-! ### The step -/

theorem test_step_empty : step sample = .next sample := by rfl

/-- K9. -/
theorem test_step_reserved :
    step { sample with inbox := [0x50000000000#44] } = .next { sample with status := .refused } := by rfl

theorem test_step_takes_oldest :
    step { sample with inbox := [0x20100000000#44, 0x30000000000#44] } =
      exec (.rxb 0x01) { sample with inbox := [0x30000000000#44] } := by rfl

theorem test_fetch_command : step (sample.withFetchWord 48 0x2AA00000000) = exec (.rxb 0xAA) sample := by rfl

theorem test_fetch_request_waits :
    (sample.withFetchWord 40 0x020041_9C03).rxFrame = [0x01, 0x03, 0x9C, 0x41, 0x00, 0x02, 0xBA, 0x4F] ∧
    (sample.withFetchWord 40 0x020041_9C03).inbox = [0x40000000000#44] := by decide +kernel

theorem test_fetch_request_runs : after (step (sample.withFetchWord 40 0x02_00_41_9C_03)) (fun t =>
    t.sent = [[0x01, 0x03, 0x04, 0x07, 0x6D, 0x07, 0x6E, 0xE9, 0x46]]) = true := by decide +kernel

/-- From power-up, with ADDR 0, a request placed by withFetchWord is dispatched and its frame released (R236). -/
theorem test_fetch_runs_after_reset :
    after (step (State.reset.withFetchWord 8 3)) (fun t => t.rxState = .idle && t.txlen = 5) = true ∧
    after (step (State.reset.withFetchWord 8 6)) (fun t => t.rxState = .idle && t.txlen = 5) = true ∧
    after (step (State.reset.withFetchWord 8 4)) (fun t => t.rxState = .idle && t.txlen = 5) = true ∧
    after (step (State.reset.withFetchWord 48 0x10100002580)) (fun t => t.cnt = 80 && t.inbox = []) = true := by
  decide +kernel

/-! ### The notation of R83 and the pseudo-instructions of R84 -/

theorem test_asm_cfg : asmLine (.cfg 1 9600) = some "CFG 1, 9600" := by decide
theorem test_asm_rxb : asmLine (.rxb 0x0F) = some "RXB 0x0F" := by decide
theorem test_request : request [0x01, 0x03] = [.rxb 0x01, .rxb 0x03, .rxb 0x40, .rxb 0x21] := by decide +kernel

/-! ### The CRC engine: C6, C3, C2, C14, C9, C20, C21, C19, C17 -/

theorem test_crc_bit : crcBit 0xFFFF = 0xDFFE ∧ crcBit 0x0001 = 0xA001 ∧ crcBit 0x8000 = 0x4000 := by decide
theorem test_crc_byte : crcByte 0xFFFF 0x01 = 0x807E ∧ crcByte 0x0000 0x01 = 0xC0C1 := by decide
theorem test_crc_blk : crc16 [0x31, 0x32, 0x33, 0x34, 0x35, 0x36, 0x37, 0x38, 0x39] = 0x4B37 := by decide +kernel
theorem test_crc_blk_order : crc16 [0x01, 0x03, 0x9C, 0x41, 0x00, 0x02] = 0x4FBA := by decide +kernel
theorem test_crc_chk : crcCheck [0x01, 0x03, 0x40, 0x21] = true ∧ crcCheck [0x01, 0x03, 0x21, 0x40] = false := by
  decide +kernel
theorem test_crc_app : crcAppend [0x01, 0x84, 0x01] = [0x01, 0x84, 0x01, 0x82, 0xC0] := by decide +kernel
theorem test_crc_app_empty : crcAppend [] = [0xFF, 0xFF] := by decide
theorem test_exec_crc_chk : after (exec (.crcChk [0xFF, 0xFF]) sample) (fun t => t.latch.chk) = true := by
  decide +kernel
theorem test_exec_crc_init : after (exec .crcInit sample) (fun t => t.latch.crc = 0xFFFF) = true := by decide

/-! ### The timer: T1 to T5, T7 to T9, T11 -/

theorem test_tmr_cfg :
    (tmrCfg 19201 = some 35 ∧ tmrCfg 19200 = some 40) ∧
    (tmrCfg 9600 = some 80 ∧ tmrCfg 110 = some 7000 ∧ tmrCfg 12 = some 64166) ∧
    (tmrCfg 11 = none) := by decide
theorem test_tck_counts : after (exec .tck (holding .receiving 2 [0x01])) (fun t => t.cnt = 1 && t.rxState = .receiving) =
    true := by decide
theorem test_tck_expires :
    (after (exec .tck (holding .receiving 1 [0x01])) (fun t => t.cnt = 0 && t.rxState = .complete) = true) ∧
    (after (exec .tck { holding .init 1 [] with thr := 40 }) (fun t =>
      t.cnt = 0 && t.rxState = .idle) = true) := by decide
theorem test_tmr_load : after (exec .tmrLoad { sample with cnt := 1 }) (fun t => t.cnt = 80) = true := by decide
theorem test_tmr_dec : after (exec .tmrDec { sample with cnt := 1 }) (fun t => t.cnt = 0 && t.latch.expiry) = true := by
  decide

/-! ### The receiver: X1, X2, X3, X4, X5, X6 -/

theorem test_rxb_accepts :
    (after (exec (.rxb 0x01) sample) (fun t =>
      t.rxState = .receiving && t.len = 1 && t.cnt = 80 && t.rxByte 0 = 0x01) = true) ∧
    (after (exec (.rxb 0x03) (holding .receiving 37 [0x01])) (fun t =>
      t.len = 2 && t.cnt = 80 && t.rxByte 1 = 0x03 && t.rxByte 0 = 0x01) = true) ∧
    (after (exec (.rxb 0xAA) { holding .receiving 5 [] with len := 255 }) (fun t =>
      t.len = 256 && t.cnt = 80 && t.rxByte 255 = 0xAA) = true) := by decide
theorem test_rxb_drops :
    (exec (.rxb 0xBB) { holding .receiving 5 [] with len := 256 } = .next { holding .receiving 5 [] with len := 256 }) ∧
    (exec (.rxb 0x01) (holding .init 40 []) = .next (holding .init 40 [])) := ⟨rfl, rfl⟩
theorem test_rx_append_past_end : exec (.rxAppend 0x01) { holding .receiving 5 [] with len := 256 } =
    .fault (.noSuchCell .rxbuf 256) := by rfl

/-! ### The validator: V3, V4, V5, V6, V9, V2 -/

theorem test_validate_discards :
    (validate (holding .complete 0 [0x01, 0x03, 0x40]) = none) ∧
    (validate (holding .complete 0 [0xFF, 0xFF]) = none) ∧
    (validate (holding .complete 0 [0x01, 0x03, 0x9C, 0x41, 0x00, 0x02, 0xBA, 0x4E]) = none) ∧
    (validate (holding .complete 0 [0x02, 0x03, 0x9C, 0x41, 0x00, 0x02, 0xBA, 0x7C]) = none) := by decide +kernel
theorem test_validate_passes :
    (validate (holding .complete 0 [0x01, 0x03, 0x40, 0x21]) = some { addr := 0x01, fc := 0x03, data := [] }) ∧
    (validate (holding .complete 0 [0x00, 0x03, 0x9C, 0x40, 0x00, 0x01, 0xAA, 0x5F]) =
      some { addr := 0x00, fc := 0x03, data := [0x9C, 0x40, 0x00, 0x01] }) := by decide +kernel
theorem test_val_len : after (exec .valLen (holding .complete 0 [0x01, 0x03, 0x40])) (fun t =>
    t.latch.verdict = .discard) = true := by decide

/-! ### The dispatcher: D1, D2, D3, D5, D6, D9, D10, D11, D12, D13, D18 -/

theorem test_rhr_first : after (exec (.rhr [0x9C, 0x40, 0x00, 0x01]) sample) (fun t =>
    t.latch.handled = .success [0x02, 0x07, 0x6C]) = true := by decide
theorem test_rhr_crosses_end : after (exec (.rhr [0x9C, 0x49, 0x00, 0x02]) sample) (fun t =>
    t.latch.handled = .exception 0x02) = true := by decide
theorem test_wsr_stores_or_refuses :
    (after (exec (.wsr [0x9C, 0x49, 0x12, 0x34]) sample) (fun t =>
      t.store[9]? = some 0x1234 && t.store[8]? = some 1908 && t.latch.handled = .success [0x9C, 0x49, 0x12, 0x34]) = true) ∧
    (after (exec (.wsr [0x9C, 0x4A, 0x00, 0x00]) sample) (fun t =>
      t.store = sample.store && t.latch.handled = .exception 0x02) = true) := by decide
theorem test_wsr_wrong_length : exec (.wsr [0x9C, 0x40, 0x12, 0x34, 0x56]) sample =
    .next { sample with latch := { sample.latch with handled := .exception Config.excBadLength } } := by rfl
theorem test_resolve_no_wrap : resolve 10 0xFFFF 1 = none ∧ resolve 25536 0xFFFF 1 = some 25535 ∧
    resolve 25536 0xFFFF 2 = none ∧ resolve 10 39999 1 = none := by decide
theorem test_fcx : after (exec (.fcx 0x04 [0x00, 0x00, 0x00, 0x01]) sample) (fun t =>
    t.latch.handled = .exception 0x01) = true := by decide
theorem test_dsp_flag_kept : after (exec (.dsp 0x83 [0x00]) sample) (fun t =>
    t.latch.reply = { fc := 0x83, payload := [0x01] }) = true := by decide

/-! ### The builder: B1, B2, B5, B6 -/

theorem test_bld : after (exec (.bld 0x01 0x03 [0x04, 0x07, 0x6D, 0x07, 0x6E]) sample) (fun t =>
    t.txlen = 9 && t.txFrame = [0x01, 0x03, 0x04, 0x07, 0x6D, 0x07, 0x6E, 0xE9, 0x46]) = true := by decide +kernel
theorem test_bld_empty : after (exec (.bld 0x01 0x41 []) sample) (fun t =>
    t.txlen = 4 && t.txFrame = [0x01, 0x41, 0xC0, 0x10]) = true := by decide +kernel
theorem test_snd_unicast : after (exec (.snd 0x01) ((sample.build 0x01 0x41 []))) (fun t =>
    t.sent = [[0x01, 0x41, 0xC0, 0x10]]) = true := by decide +kernel
theorem test_snd_broadcast : after (exec (.snd 0x00) ((sample.build 0x00 0x06 [0x9C, 0x40, 0xAB, 0xCD]))) (fun t =>
    t.sent = [] && t.txFrame = [0x00, 0x06, 0x9C, 0x40, 0xAB, 0xCD, 0x19, 0x3A]) = true := by decide +kernel
theorem test_rel : after (exec .rel (holding .complete 0 [0x01, 0x03])) (fun t =>
    t.rxState = .idle && t.len = 0) = true := by decide

/-! ### The commands: K1, K3, K4, K6, D16, P4's first frame -/

theorem test_cfg : after (exec (.cfg 2 19200) (holding .receiving 7 [0x01, 0x03, 0x9C])) (fun t =>
    t.addr = 2 && t.thr = 40 && t.cnt = 40 && t.len = 0 && t.rxState = .init) = true := by decide
theorem test_cfg_refused : exec (.cfg 248 9600) sample = .next { sample with status := .refused } := by rfl
theorem test_rst : after (exec .rst (holding .receiving 7 [0x01])) (fun t =>
    t.rxState = .init && t.addr = 0 && t.thr = 0 && t.len = 0 && t.cnt = 0 && t.store = sample.store) = true := by
  decide
theorem test_prc_answers :
    (after (exec .prc (completed [0x01, 0x04, 0x00, 0x00, 0x00, 0x01])) (fun t =>
      t.sent = [[0x01, 0x84, 0x01, 0x82, 0xC0]] && t.rxState = .idle && t.len = 0) = true) ∧
    (after (exec .prc (completed [0x00, 0x06, 0x9C, 0x40, 0xAB, 0xCD])) (fun t =>
      t.sent = [] && t.store[0]? = some 0xABCD && t.txFrame = [0x00, 0x06, 0x9C, 0x40, 0xAB, 0xCD, 0x19, 0x3A]) = true) := by decide +kernel
theorem test_prc_outside_complete : exec .prc (holding .receiving 7 [0x01, 0x03]) =
    .next (holding .receiving 7 [0x01, 0x03]) := by rfl

/-! ### Memory -/

theorem test_reset_memory_wf : Memory.wf State.reset.rxbuf = true ∧ Memory.wf State.reset.txbuf = true := by decide
theorem test_wf_refuses_disorder : Memory.wf [(1, 0x00), (0, 0x00)] = false ∧ Memory.wf [(256, 0x00)] = false := by
  decide
theorem test_write_keeps_order : Memory.write [(0, 0x01), (2, 0x03)] 1 0x02 = [(0, 0x01), (1, 0x02), (2, 0x03)] := by
  decide

/-! ## Witnesses: for each statement with hypotheses, named after it, states and operands that meet them -/

/-- A command at the port of a state. -/
def given (w : CmdWord) (s : State) : State := { s with inbox := [w] }

/-- A completed frame waits whole in RXBUF. -/
theorem completed_rxFrame (bytes : List Byte) : (completed bytes).rxFrame = crcAppend bytes :=
  slice_writeBytes 0 .rxbuf [] (crcAppend bytes)

/-- A store of 125 words. -/
def wide : State := { sample with store := (List.range 125).map (fun i => BitVec.ofNat 16 (1900 + i)) }

theorem test_meets_CommandWordFields :
    (0x01F12345678#44).extractLsb' 40 4 = 0#4 ∧ (0x1F70000000C#44).extractLsb' 40 4 = 1#4 ∧
    (0x2FF00000001#44).extractLsb' 40 4 = 2#4 ∧ (0x3FF12345678#44).extractLsb' 40 4 = 3#4 ∧
    (0x4FFFFFFFFFF#44).extractLsb' 40 4 = 4#4 ∧ 5 ≤ ((0x50000000000#44).extractLsb' 40 4).toNat ∧
    5 ≤ ((0xFFFFFFFFFFF#44).extractLsb' 40 4).toNat := by decide

theorem test_meets_FunctionByteSelectsOperation :
    (List.replicate 252 0#8).length ≤ 252 ∧ ([] : List Byte).length ≤ 252 ∧ 0x04#8 ≠ 0x03#8 ∧ 0x04#8 ≠ 0x06#8 :=
  ⟨List.length_replicate.le, by decide, by decide, by decide⟩

theorem test_meets_DecodeOfEncodeIsIdentity :
    (Instr.cfg 255 0xFFFFFFFF).wf = true ∧ (Instr.cfg 255 0xFFFFFFFF).format ≠ .micro ∧
    (Instr.fcx 0x83 (List.replicate 252 0xFF)).wf = true ∧ (Instr.fcx 0x83 (List.replicate 252 0xFF)).format ≠ .micro :=
  ⟨by decide, by decide, by decide +kernel, by decide⟩

theorem test_meets_EncodeOfDecodeIsCanonical :
    decode (.pdu [0xFF]) = .ok (.fcx 0xFF []) ∧ decode (.cmd 0x2FF12345678#44) = .ok (.rxb 0xFF) := by decide

theorem test_meets_StepRunsTheDecodedCommand :
    (given 0x30000000000#44 sample).inbox = 0x30000000000#44 :: [] ∧ decode (.cmd 0x30000000000#44) = .ok .tck ∧
    sample.inbox = [] := by decide

theorem test_meets_ReservedCodeIsRefused :
    (given 0x50000000000#44 sample).inbox = 0x50000000000#44 :: [] ∧
    5 ≤ ((0x50000000000#44).extractLsb' 40 4).toNat := by decide

/-- The invariant holds of a completed frame waiting for PRC. -/
theorem test_safe_completed : SafeState (given 0x40000000000#44 (completed [0x01, 0x04])) where
  invariants := by constructor <;> decide
  widths := by constructor <;> decide
  buffers := by constructor <;> decide
  armed_configured := by decide
  nregs_range := by decide

theorem test_meets_EveryStepKeepsInvariant : ∃ s t, SafeState s ∧ step s = .next t :=
  ⟨_, _, test_safe_completed, rfl⟩

theorem test_meets_EverythingSentIsAGoodFrame :
    ∃ s t, SentGood s ∧ s.sent ≠ [] ∧ step s = .next t ∧ t.sent.length = s.sent.length + 1 :=
  ⟨{ given 0x40000000000#44 (completed [0x01, 0x04]) with sent := [[0x01, 0x03, 0x40, 0x21]] }, _,
    by unfold SentGood; decide +kernel, by decide, rfl, by decide +kernel⟩

theorem test_meets_CommandsIgnoreTheLatches : ∃ t, step (given 0x30000000000#44 sample) = .next t := ⟨_, rfl⟩

/-- One change of STATE for each of the six cases. -/
theorem test_meets_ReceiverTransitionsAreTheTable :
    after (step (given 0x00000000000#44 sample)) (fun t => t.rxState = .init) = true ∧
    after (step (given 0x1010000000C#44 sample)) (fun t => t.rxState = .init) = true ∧
    after (step (given 0x30000000000#44 { holding .init 1 [] with thr := 1 })) (fun t => t.rxState = .idle) = true ∧
    after (step (given 0x20000000000#44 sample)) (fun t => t.rxState = .receiving) = true ∧
    after (step (given 0x30000000000#44 (holding .receiving 1 [0x01]))) (fun t => t.rxState = .complete) = true ∧
    after (step (given 0x40000000000#44 (holding .complete 0 [0x01]))) (fun t => t.rxState = .idle) = true := by decide

/-- FRAME_READY raised, and ended by PRC, RST and CFG; TIMER_ARMED raised by CFG and by a first byte, and ended by an expiry,
by RST, and by a byte reloading a threshold of 0, in a state no run reaches. -/
theorem test_meets_ConditionsChangeOnlyByTheirCauses :
    after (step (given 0x30000000000#44 (holding .receiving 1 [0x01]))) (fun t => t.frameReady && !t.timerArmed) = true ∧
    (holding .receiving 1 [0x01]).frameReady = false ∧ (holding .receiving 1 [0x01]).timerArmed = true ∧
    (holding .complete 0 [0x01]).frameReady = true ∧
    after (step (given 0x40000000000#44 (holding .complete 0 [0x01]))) (fun t => !t.frameReady) = true ∧
    after (step (given 0x00000000000#44 (holding .complete 0 [0x01]))) (fun t => !t.frameReady) = true ∧
    after (step (given 0x1F70000000C#44 (holding .complete 0 [0x01]))) (fun t => !t.frameReady) = true ∧
    after (step (given 0x1010000000C#44 sample)) (fun t => t.timerArmed) = true ∧ sample.timerArmed = false ∧
    after (step (given 0x20000000000#44 sample)) (fun t => t.timerArmed) = true ∧
    after (step (given 0x00000000000#44 (holding .receiving 9 [0x01]))) (fun t => !t.timerArmed) = true ∧
    after (step (given 0x20000000000#44 { holding .receiving 9 [0x01] with thr := 0 }))
      (fun t => !t.timerArmed) = true := by
  decide

/-- The clause with the invariant: an armed timer and its last tick, in a state that meets it. -/
theorem test_safe_last_tick : SafeState (given 0x30000000000#44 (holding .receiving 1 [0x01])) where
  invariants := by constructor <;> decide
  widths := by constructor <;> decide
  buffers := by constructor <;> decide
  armed_configured := by decide
  nregs_range := by decide

theorem test_meets_BuffersChangeOnlyByTheirOwner :
    after (step (given 0x20500000000#44 (holding .complete 0 [0x01]))) (fun t => t.rxByte 0 = 0x01) = true ∧
    after (step (given 0x20500000000#44 (holding .idle 0 [0x01]))) (fun t => t.rxByte 0 = 0x05) = true ∧
    after (step (given 0x40000000000#44 (completed [0x01, 0x04]))) (fun t => t.txlen = 5) = true := by decide +kernel

/-- The first and the last word of the store. -/
theorem test_meets_StoreChangesOnlyByAValidWrite :
    after (step (given 0x40000000000#44 (completed [0x01, 0x06, 0x9C, 0x40, 0x12, 0x34])))
      (fun t => t.store ≠ sample.store && t.store[0]? = some 0x1234) = true ∧
    after (step (given 0x40000000000#44 (completed [0x00, 0x06, 0x9C, 0x49, 0x12, 0x34])))
      (fun t => t.store ≠ sample.store && t.store[9]? = some 0x1234) = true := by decide +kernel

/-- A frame sent, from the state of `test_safe_completed`; a broadcast not sent. -/
theorem test_meets_SentGrowsOnlyByTheResponseBuilt :
    SafeState (given 0x40000000000#44 (completed [0x01, 0x04])) ∧
    after (step (given 0x40000000000#44 (completed [0x01, 0x04]))) (fun t => t.sent = [t.txFrame]) = true ∧
    after (step (given 0x40000000000#44 (completed [0x00, 0x04]))) (fun t => t.sent = []) = true :=
  ⟨test_safe_completed, by decide +kernel, by decide +kernel⟩

theorem test_meets_UnconfiguredBlockStaysInInit :
    ∀ i ∈ [Instr.tck, .rxb 0x01, .prc], i = .tck ∨ i = .prc ∨ ∃ b, i = .rxb b := by simp

theorem test_meets_ConfigureOrRefuse :
    (0#8).toNat < 1 ∧ 247 < (248#8).toNat ∧ (11#32).toNat < 12 ∧
    1 ≤ (1#8).toNat ∧ (247#8).toNat ≤ 247 ∧ 12 ≤ (12#32).toNat := by decide

/-- THR is 35: 34 ticks with a byte and a PRC between them fall short, 35 do not. -/
theorem test_meets_BringUpTakesThresholdTicks :
    1 ≤ (1#8).toNat ∧ (247#8).toNat ≤ 247 ∧ 12 ≤ (115200#32).toNat ∧
    (∀ i ∈ [Instr.rxb 0x01, .prc] ++ ticks 35, i = .tck ∨ i = .prc ∨ ∃ b, i = .rxb b) ∧
    ([Instr.rxb 0x01, .prc] ++ ticks 34).count .tck < 35 ∧ ([Instr.rxb 0x01, .prc] ++ ticks 35).count .tck = 35 ∧
    ([Instr.rxb 0x01, .prc] ++ ticks 35).getLast? = some .tck ∧
    after (execAll [.rst, .cfg 1 115200] sample) (fun t => t.thr = 35) = true :=
  ⟨by decide, by decide, by decide, by simp [ticks], by decide, by decide, by decide, by decide⟩

theorem test_meets_TimerMicroOperationResults :
    (11#32).toNat < 12 ∧ 12 ≤ (12#32).toNat ∧ 1 ≤ (holding .receiving 1 [0x01]).cnt := by decide

theorem test_meets_ThresholdIsLegalAndFalling :
    12 ≤ (12#32).toNat ∧ (12#32).toNat ≤ (19200#32).toNat ∧ (19200#32).toNat ≤ 19200 ∧ 19200 < (19201#32).toNat := by
  decide

theorem test_meets_TickAndExpireResults :
    sample.cnt = 0 ∧ 2 ≤ (holding .receiving 2 [0x01]).cnt ∧ (holding .init 1 []).cnt = 1 ∧
    (holding .init 1 []).rxState = .init ∧ (holding .receiving 2 [0x01]).rxState = .receiving ∧ sample.rxState = .idle := by
  decide

/-- A threshold of 2 with one tick and with two; a threshold of 1, where the first tick expires. -/
theorem test_meets_ExpiryExactlyOnceAfterThresholdTicks :
    1 ≤ { sample with thr := 2 }.thr ∧ 1 < { sample with thr := 2 }.thr ∧ { sample with thr := 2 }.thr ≤ 2 ∧
    { sample with thr := 1 }.thr ≤ 1 := by decide

theorem test_meets_FirstByteStartsAFrame : sample.rxState = .idle := by decide

theorem test_meets_FurtherByteIsAppended :
    { holding .receiving 9 [] with len := 255 }.rxState = .receiving ∧ { holding .receiving 9 [] with len := 255 }.len < 256 := by
  decide

theorem test_meets_UnacceptedByteChangesNothing :
    ({ holding .receiving 9 [] with len := 256 }.rxState = .receiving ∧ 256 ≤ { holding .receiving 9 [] with len := 256 }.len) ∧
    (holding .complete 0 [0x01]).rxState = .complete ∧ (holding .init 9 []).rxState = .init := by decide

theorem test_meets_MicroOperationsOutsideTheirPreconditions :
    { sample with len := 255 }.len < 256 ∧ 256 ≤ { sample with len := 256 }.len ∧ sample.cnt = 0 := by decide

/-- A frame of one byte, and one of 256 with the longest gap allowed. -/
theorem test_meets_FrameReceivedWholeBySilence :
    sample.rxState = .idle ∧ 1 ≤ sample.thr ∧ [(0x01#8, 0)] ≠ [] ∧ [(0x01#8, 0)].length ≤ 256 ∧
    (List.replicate 256 (0x01#8, 79)).length ≤ 256 ∧ (∀ p ∈ List.replicate 256 (0x01#8, 79), p.2 < sample.thr) :=
  ⟨by decide, by decide, by decide, by decide, List.length_replicate.le,
    fun _ hp => List.eq_of_mem_replicate hp ▸ (by decide : 79 < 80)⟩

/-- One tick too few, exactly THR ticks, and more. -/
theorem test_meets_OverlongFrameKeepsFirst256 :
    sample.rxState = .idle ∧ 1 ≤ sample.thr ∧ (List.replicate 256 0x01#8).length = 256 ∧
    ([(0x02#8, 40), (0x03#8, 39)].map (fun p => p.2)).sum < sample.thr ∧
    sample.thr ≤ ([(0x02#8, 40), (0x03#8, 40)].map (fun p => p.2)).sum ∧
    sample.thr ≤ ([(0x02#8, 90), (0x03#8, 40)].map (fun p => p.2)).sum :=
  ⟨by decide, by decide, List.length_replicate, by decide, by decide, by decide⟩

theorem test_meets_SimultaneousEventsInEitherOrder :
    (holding .receiving 1 [0x01, 0x03]).rxState = .receiving ∧ (holding .receiving 1 [0x01, 0x03]).cnt = 1 ∧
    (holding .receiving 1 [0x01, 0x03]).len < 256 ∧ 2 ≤ (holding .receiving 1 [0x01, 0x03]).thr ∧
    (completed [0x01, 0x04]).rxState = .complete := by decide

theorem test_meets_ByteAndTickAreTheirMicroOperations :
    (holding .receiving 1 [0x01]).cnt ≠ 0 ∧ (holding .receiving 2 [0x01]).cnt ≠ 0 := by decide

theorem test_meets_ValidatorResults : 4 ≤ (holding .complete 0 [0x01, 0x03, 0x40, 0x21]).len := by decide

/-- Too short (V3), bad CRC (V5), foreign (V6). -/
theorem test_meets_FailedFrameIsDiscardedSilently :
    (holding .complete 0 [0x01, 0x03, 0x40]).rxState = .complete ∧ (holding .complete 0 [0x01, 0x03, 0x40]).len < 4 ∧
    crc16 (holding .complete 0 [0x01, 0x03, 0x9C, 0x41, 0x00, 0x02, 0xBA, 0x4E]).rxFrame ≠ 0#16 ∧
    (completed [0x02, 0x03]).rxByte 0 ≠ (completed [0x02, 0x03]).addr ∧ (completed [0x02, 0x03]).rxByte 0 ≠ 0#8 := by
  decide +kernel

/-- One word at the end of the window, and all 125 words of a store of 125. -/
theorem test_meets_ReadAnswersTheRegisters :
    (1 ≤ 256 * (0x00#8).toNat + (0x01#8).toNat ∧ 40000 ≤ 256 * (0x9C#8).toNat + (0x49#8).toNat ∧
      256 * (0x9C#8).toNat + (0x49#8).toNat + (256 * (0x00#8).toNat + (0x01#8).toNat) ≤ 40000 + sample.store.length) ∧
    (256 * (0x00#8).toNat + (0x7D#8).toNat ≤ 125 ∧ 40000 ≤ 256 * (0x9C#8).toNat + (0x40#8).toNat ∧
      256 * (0x9C#8).toNat + (0x40#8).toNat + (256 * (0x00#8).toNat + (0x7D#8).toNat) ≤ 40000 + wide.store.length) :=
  ⟨by decide, by decide, by decide, by simp [wide]⟩

/-- Count 0, count 126, one below the base, one past the end; the two wrong addresses of a write; 3 and 5 data bytes. -/
theorem test_meets_HandlerRefusals :
    256 * (0x00#8).toNat + (0x00#8).toNat = 0 ∧ 125 < 256 * (0x00#8).toNat + (0x7E#8).toNat ∧
    256 * (0x9C#8).toNat + (0x3F#8).toNat < 40000 ∧
    40000 + sample.store.length < 256 * (0x9C#8).toNat + (0x49#8).toNat + (256 * (0x00#8).toNat + (0x02#8).toNat) ∧
    40000 + sample.store.length ≤ 256 * (0x9C#8).toNat + (0x4A#8).toNat ∧
    [0x9C#8, 0x41, 0x00].length ≠ 4 ∧ [0x9C#8, 0x40, 0x12, 0x34, 0x56].length ≠ 4 ∧ 0x04#8 ≠ 0x03#8 ∧ 0x04#8 ≠ 0x06#8 := by
  decide

theorem test_meets_WriteSetsTheWordAndEchoes :
    40000 ≤ 256 * (0x9C#8).toNat + (0x40#8).toNat ∧ 256 * (0x9C#8).toNat + (0x49#8).toNat < 40000 + sample.store.length := by
  decide

/-- A success and an exception. -/
theorem test_meets_DispatchFlagsExceptions :
    after (exec (.rhr [0x9C, 0x40, 0x00, 0x01]) sample) (fun t => t.latch.handled = .success [0x02, 0x07, 0x6C]) = true ∧
    after (exec (.fcx 0x04 []) sample) (fun t => t.latch.handled = .exception 0x01) = true := by decide

theorem test_meets_OnlyTheListedCodesAreRaised :
    (∃ t, exec (.rhr [0x9C, 0x40, 0x00, 0x00]) sample = .next t ∧ t.latch.handled = .exception 0x02) ∧
    (∃ t, exec (.wsr [0x9C]) sample = .next t ∧ t.latch.handled = .exception Config.excBadLength) ∧
    (∃ t, exec (.fcx 0x04 []) sample = .next t ∧ t.latch.handled = .exception 0x01) :=
  ⟨⟨_, rfl, by decide⟩, ⟨_, rfl, rfl⟩, ⟨_, rfl, by decide⟩⟩

/-- A cell at TXLEN, above the empty response. -/
theorem test_meets_BuildLaysDownTheResponse : after (exec (.bld 0x01 0x41 []) sample) (fun t => t.txlen ≤ 4) = true := by
  decide

theorem test_meets_SendHandsOverUnlessBroadcast : 0x01#8 ≠ 0#8 ∧ 0x00#8 = 0#8 := by decide

/-- Outside COMPLETE; in COMPLETE with a frame that fails a check, and with one that passes all three. -/
theorem test_meets_ProcessIsItsMicroOperations :
    sample.rxState ≠ .complete ∧ (completed [0x01, 0x04]).rxState = .complete ∧
    after (exec .valLen (holding .complete 0 [0x01])) (fun t => t.latch.verdict = .discard) = true ∧
    after (exec .valLen (completed [0x01, 0x04])) (fun t => t.latch.verdict = .pass) = true ∧
    after (exec .valCrc (completed [0x01, 0x04])) (fun t => t.latch.verdict = .pass) = true ∧
    after (exec .valAddr (completed [0x01, 0x04])) (fun t => t.latch.verdict = .pass) = true := by decide +kernel

theorem test_meets_ReadRequestIsAnswered :
    (completed [0x01, 0x03, 0x9C, 0x49, 0x00, 0x01]).rxState = .complete ∧
    0x01#8 = (completed [0x01, 0x03, 0x9C, 0x49, 0x00, 0x01]).addr ∧
    (completed [0x01, 0x03, 0x9C, 0x49, 0x00, 0x01]).rxFrame = crcAppend [0x01, 0x03, 0x9C, 0x49, 0x00, 0x01] ∧
    1 ≤ 256 * (0x00#8).toNat + (0x01#8).toNat ∧ 40000 ≤ 256 * (0x9C#8).toNat + (0x49#8).toNat ∧
    256 * (0x9C#8).toNat + (0x49#8).toNat + (256 * (0x00#8).toNat + (0x01#8).toNat) ≤
      40000 + (completed [0x01, 0x03, 0x9C, 0x49, 0x00, 0x01]).store.length := by decide +kernel

theorem test_meets_WriteRequestIsAnswered :
    (completed [0x00, 0x06, 0x9C, 0x49, 0x12, 0x34]).rxState = .complete ∧
    (completed [0x00, 0x06, 0x9C, 0x49, 0x12, 0x34]).rxFrame = crcAppend [0x00, 0x06, 0x9C, 0x49, 0x12, 0x34] ∧
    40000 ≤ 256 * (0x9C#8).toNat + (0x49#8).toNat ∧
    256 * (0x9C#8).toNat + (0x49#8).toNat < 40000 + (completed [0x00, 0x06, 0x9C, 0x49, 0x12, 0x34]).store.length := by
  decide +kernel

/-- The four causes: an unmatched code in a frame of 256 bytes, a wrong length, a read of no registers, a write outside. -/
theorem test_meets_ExceptionIsAnsweredByFiveBytes :
    ((completed (0x01 :: 0x41 :: List.replicate 252 0xAA)).rxFrame = crcAppend (0x01 :: 0x41 :: List.replicate 252 0xAA) ∧
      0x41#8 ≠ 0x03#8 ∧ 0x41#8 ≠ 0x06#8) ∧
    ((completed [0x01, 0x03, 0x9C]).rxFrame = crcAppend [0x01, 0x03, 0x9C] ∧ [0x9C#8].length ≠ 4) ∧
    ((completed [0x01, 0x03, 0x9C, 0x40, 0x00, 0x00]).rxFrame = crcAppend [0x01, 0x03, 0x9C, 0x40, 0x00, 0x00] ∧
      256 * (0x00#8).toNat + (0x00#8).toNat = 0) ∧
    ((completed [0x01, 0x06, 0x9C, 0x4A, 0x00, 0x00]).rxFrame = crcAppend [0x01, 0x06, 0x9C, 0x4A, 0x00, 0x00] ∧
      40000 + sample.store.length ≤ 256 * (0x9C#8).toNat + (0x4A#8).toNat) :=
  ⟨⟨completed_rxFrame _, by decide, by decide⟩, ⟨completed_rxFrame _, by decide⟩, ⟨completed_rxFrame _, by decide⟩,
    completed_rxFrame _, by decide⟩

theorem test_meets_BroadcastIsBuiltAndNotSent :
    (completed [0x00, 0x04]).rxState = .complete ∧ 4 ≤ (completed [0x00, 0x04]).len ∧
    crc16 (completed [0x00, 0x04]).rxFrame = 0#16 ∧ (completed [0x00, 0x04]).rxByte 0 = 0#8 := by decide +kernel

/-- The shortest frame that passes the checks, unicast and broadcast, and one that fails the first. -/
theorem test_meets_AnyDispatcherGetsAGoodResponse :
    (completed [0x01, 0x03]).rxState = .complete ∧ 4 ≤ (completed [0x01, 0x03]).len ∧
    crc16 (completed [0x01, 0x03]).rxFrame = 0#16 ∧ (completed [0x01, 0x03]).rxByte 0 = (completed [0x01, 0x03]).addr ∧
    4 ≤ (completed [0x00, 0x04]).len ∧ crc16 (completed [0x00, 0x04]).rxFrame = 0#16 ∧
    (completed [0x00, 0x04]).rxByte 0 = 0#8 ∧
    (holding .complete 0 [0x01, 0x03, 0x40]).rxState = .complete ∧ ¬ 4 ≤ (holding .complete 0 [0x01, 0x03, 0x40]).len := by
  decide +kernel

/-- RXBUF with a stale cell above LEN, and without it. -/
theorem test_meets_StaleCellsAreNeverRead :
    (∀ i, i < (holding .complete 0 [0x01, 0x03, 0x40]).len →
      Memory.read? [(0, 0x01), (1, 0x03), (2, 0x40), (9, 0x55)] i =
        Memory.read? (holding .complete 0 [0x01, 0x03, 0x40]).rxbuf i) ∧
    ∃ t, exec .prc (holding .complete 0 [0x01, 0x03, 0x40]) = .next t := ⟨by decide, _, rfl⟩

theorem test_meets_PureOperationsChangeOnlyTheirLatch :
    ∀ i ∈ [Instr.crcInit, .crcBit 1, .crcByte 1 2, .crcBlk [], .crcChk [], .crcApp [], .valLen, .valCrc, .valAddr, .valPdu,
      .rhr [], .fcx 0 []], ∃ t, exec i sample = .next t := by
  simp [exec, execCrcInit, execCrcBit, execCrcByte, execCrcBlk, execCrcChk, execCrcApp, execValLen, execValCrc, execValAddr,
    execValPdu, execRhr, execFcx]

theorem test_meets_NonStoringOperationsLeaveMemory :
    (∃ t, exec (.cfg 1 9600) sample = .next t) ∧ (∃ t, exec .tck sample = .next t) ∧
    (∃ t, exec (.tmrCfg 9600) sample = .next t) ∧ (∃ t, exec .tmrLoad sample = .next t) ∧
    (∃ t, exec .tmrDec sample = .next t) ∧ (∃ t, exec .rxExpire sample = .next t) ∧
    (∃ t, exec (.rxDrop 1) sample = .next t) ∧ (∃ t, exec .discard sample = .next t) ∧
    (∃ t, exec .rel sample = .next t) ∧ (∃ t, exec (.snd 1) sample = .next t) :=
  ⟨⟨_, rfl⟩, ⟨_, rfl⟩, ⟨_, rfl⟩, ⟨_, rfl⟩, ⟨_, rfl⟩, ⟨_, rfl⟩, ⟨_, rfl⟩, ⟨_, rfl⟩, ⟨_, rfl⟩, _, rfl⟩

end Sys2Proof.Tests
end

section
/-! SUPPORT. What the handlers of 0x03 and 0x06 answer, the CRC round trip, and what PRC makes of a request in RXBUF.
Then the statements of 30_encoding.md. -/

namespace Sys2Proof.Machine

/-! ### Request fields and the window (44_dispatcher_and_store.md R187 to R192) -/

/-- Register number 40001 stands at wire address 40000 (20_memory.md R56): there the window starts. -/
theorem resolve_of_inWindow {nregs w n : Nat} (hlo : 40000 ≤ w) (hhi : w + n ≤ 40000 + nregs) :
    resolve nregs w n = some (w - 40000) :=
  resolve_eq_some.mpr ⟨by omega, by omega, by omega⟩

theorem resolve_of_outsideWindow {nregs w n : Nat} (h : w < 40000 ∨ 40000 + nregs < w + n) :
    resolve nregs w n = none :=
  resolve_eq_none.mpr (by omega)

/-- A good read (R188, R189). -/
theorem rhr_inWindow (e : Byte) {d0 d1 d2 d3 : Byte} {store : List Word}
    (hpos : 1 ≤ 256 * d2.toNat + d3.toNat) (hmax : 256 * d2.toNat + d3.toNat ≤ 125)
    (hlo : 40000 ≤ 256 * d0.toNat + d1.toNat)
    (hhi : 256 * d0.toNat + d1.toNat + (256 * d2.toNat + d3.toNat) ≤ 40000 + store.length) :
    rhr e [d0, d1, d2, d3] store =
      .success (readPayload (storeRead store (256 * d0.toNat + d1.toNat - 40000) (256 * d2.toNat + d3.toNat))) store := by
  have hcount : ¬ (256 * d2.toNat + d3.toNat = 0 ∨ 256 * d2.toNat + d3.toNat > 125) := by omega
  simp only [rhr, be16_toNat, if_neg hcount, resolve_of_inWindow hlo hhi]

/-- A read whose count or range is refused (R188). -/
theorem rhr_outsideWindow (e : Byte) {d0 d1 d2 d3 : Byte} {store : List Word}
    (h : 256 * d2.toNat + d3.toNat = 0 ∨ 125 < 256 * d2.toNat + d3.toNat ∨ 256 * d0.toNat + d1.toNat < 40000 ∨
      40000 + store.length < 256 * d0.toNat + d1.toNat + (256 * d2.toNat + d3.toNat)) :
    rhr e [d0, d1, d2, d3] store = .exception 0x02#8 := by
  simp only [rhr, be16_toNat, Config.maxReadCount]
  split
  · rfl
  · rw [resolve_of_outsideWindow (by omega)]
    rfl

/-- A good write (R192, R193). -/
theorem wsr_inWindow (e : Byte) {d0 d1 d2 d3 : Byte} {store : List Word}
    (hlo : 40000 ≤ 256 * d0.toNat + d1.toNat) (hhi : 256 * d0.toNat + d1.toNat < 40000 + store.length) :
    wsr e [d0, d1, d2, d3] store =
      .success [d0, d1, d2, d3] (storeWrite store (256 * d0.toNat + d1.toNat - 40000) (be16 d2 d3)) := by
  have hin : 256 * d0.toNat + d1.toNat + 1 ≤ 40000 + store.length := hhi
  simp only [wsr, be16_toNat, resolve_of_inWindow hlo hin]

/-- A write to an address that is refused (R192). -/
theorem wsr_outsideWindow (e : Byte) {d0 d1 d2 d3 : Byte} {store : List Word}
    (h : 256 * d0.toNat + d1.toNat < 40000 ∨ 40000 + store.length ≤ 256 * d0.toNat + d1.toNat) :
    wsr e [d0, d1, d2, d3] store = .exception 0x02#8 := by
  have hout : resolve store.length (256 * d0.toNat + d1.toNat) 1 = none := resolve_of_outsideWindow (by omega)
  simp only [wsr, be16_toNat, hout]
  rfl

/-- A read request of the wrong length (R185). -/
theorem rhr_badLength (e : Byte) {data : List Byte} (store : List Word) (h : data.length ≠ 4) :
    rhr e data store = .exception e := by
  unfold rhr
  split
  · exact absurd rfl h
  · rfl

/-- A write request of the wrong length (R185). -/
theorem wsr_badLength (e : Byte) {data : List Byte} (store : List Word) (h : data.length ≠ 4) :
    wsr e data store = .exception e := by
  unfold wsr
  split
  · exact absurd rfl h
  · rfl

/-! ### The meanings through the handlers and the engine -/

theorem exec_rhr (data : List Byte) (s : State) :
    exec (.rhr data) s = .next (s.latchHandled (rhr Config.excBadLength data s.store)) := rfl

theorem exec_wsr (data : List Byte) (s : State) :
    exec (.wsr data) s = .next (s.latchHandled (wsr Config.excBadLength data s.store)) := rfl

theorem exec_prc (s : State) :
    exec .prc s = .next (process (dsp Config.excBadLength) Config.bcastTx s).accept := rfl

/-! ### The handler a function code selects (R182) -/

theorem handler_rhr (e : Byte) (data : List Byte) (store : List Word) :
    handler e 0x03#8 data store = rhr e data store := rfl

theorem handler_wsr (e : Byte) (data : List Byte) (store : List Word) :
    handler e 0x06#8 data store = wsr e data store := rfl

/-- The default arm raises ILLEGAL_FUNCTION (R184). -/
theorem handler_unmatched (e : Byte) {fc : Byte} (data : List Byte) (store : List Word) (h3 : fc ≠ 0x03#8)
    (h6 : fc ≠ 0x06#8) : handler e fc data store = .exception 0x01#8 := by
  simp only [handler, if_neg h3, if_neg h6]
  rfl

/-- DSP of a request whose handler raises a code (R183). -/
theorem dsp_of_exception {e fc code : Byte} {data : List Byte} {store : List Word}
    (h : handler e fc data store = .exception code) : dsp e fc data store = (fc ||| 0x80#8, [code], store) := by
  simp only [dsp, h]
  rfl

/-! ### What a read answers (30_encoding.md R75, 44_dispatcher_and_store.md R186) -/

theorem storeRead_length {store : List Word} {i n : Nat} (h : i + n ≤ store.length) :
    (storeRead store i n).length = n := by
  simp only [storeRead, List.length_take, List.length_drop]
  omega

theorem storeRead_getElem? (store : List Word) {i n k : Nat} (h : k < n) :
    (storeRead store i n)[k]? = store[i + k]? := by
  rw [storeRead, List.getElem?_take_of_lt h, List.getElem?_drop]

theorem flatMap_wordBytes_length (words : List Word) : (words.flatMap wordBytes).length = 2 * words.length := by
  induction words with
  | nil => rfl
  | cons w words ih =>
    rw [List.flatMap_cons, List.length_append, ih, List.length_cons, Nat.mul_add, Nat.add_comm]
    rfl

/-- Word `k` of a list of words stands on the wire at byte `2 * k`, high byte first. -/
theorem flatMap_wordBytes_getElem? {words : List Word} {k : Nat} {v : Word} (h : words[k]? = some v) :
    (words.flatMap wordBytes)[2 * k]? = some (hi8 v) ∧ (words.flatMap wordBytes)[2 * k + 1]? = some (lo8 v) := by
  induction words generalizing k with
  | nil => simp at h
  | cons w words ih =>
    cases k with
    | zero =>
      obtain rfl : w = v := by simpa using h
      exact ⟨rfl, rfl⟩
    | succ k => exact ih (by simpa using h)

theorem readPayload_length (words : List Word) : (readPayload words).length = 1 + 2 * words.length := by
  simp only [readPayload, List.length_cons, flatMap_wordBytes_length]
  omega

/-- Word `k` of a read stands in the payload after the byte count, at R75's offsets. -/
theorem readPayload_getElem? {words : List Word} {k : Nat} {v : Word} (h : words[k]? = some v) :
    (readPayload words)[1 + 2 * k]? = some (hi8 v) ∧ (readPayload words)[2 + 2 * k]? = some (lo8 v) := by
  have h1 : 1 + 2 * k = 2 * k + 1 := by omega
  have h2 : 2 + 2 * k = 2 * k + 1 + 1 := by omega
  rw [h1, h2]
  exact flatMap_wordBytes_getElem? h

/-! ### The CRC round trip (40_crc16.md R106) -/

/-- Where bit `k` is zero, the shift of a register already shifted by `k` is a plain one. -/
theorem crcBit_shiftRight {x : Word} {k : Nat} (h : x.getLsbD k = false) : crcBit (x >>> k) = x >>> (k + 1) := by
  have heven : (x >>> k).getLsbD 0 = false := by rwa [BitVec.getLsbD_ushiftRight]
  rw [crcBit, heven, if_neg Bool.false_ne_true, ← BitVec.shiftRight_add]

/-- A register whose low half is zero is shifted by eight. -/
theorem crcByte_of_low_zero {c : Word} {b : Byte} (h : ∀ i, i < 8 → (c ^^^ b.zeroExtend 16).getLsbD i = false) :
    crcByte c b = (c ^^^ b.zeroExtend 16) >>> 8 := by
  conv_lhs => rw [crcByte, ← BitVec.ushiftRight_zero (x := c ^^^ b.zeroExtend 16)]
  simp only [crcBit_shiftRight, h, Nat.reduceLT, Nat.reduceAdd]

/-- The byte that equals the register's low half cancels it, and eight shifts bring the high half down. -/
theorem crcByte_lo8 (c : Word) : crcByte c (lo8 c) = c >>> 8 := by
  have hlow : ∀ i, i < 8 → (c ^^^ (lo8 c).zeroExtend 16).getLsbD i = false := by
    intro i hi
    simp [lo8, hi, show i < 16 by omega]
  have hhigh : (c ^^^ (lo8 c).zeroExtend 16) >>> 8 = c >>> 8 := by
    ext i hi
    simp [lo8]
  rw [crcByte_of_low_zero hlow, hhigh]

/-- The byte that equals the whole register, its high half zero, leaves zero. -/
theorem crcByte_hi8 (c : Word) : crcByte (c >>> 8) (hi8 c) = 0#16 := by
  have hcancel : c >>> 8 ^^^ (hi8 c).zeroExtend 16 = 0#16 := by
    ext i hi
    have hlt : c.getLsbD (8 + i) = true → i < 8 := fun h => by have := BitVec.lt_of_getLsbD h; omega
    simpa [hi8] using hlt
  rw [crcByte, hcancel]
  decide

/-- A sequence with its CRC appended leaves the residue zero. -/
theorem crc16_crcAppend (bs : List Byte) : crc16 (crcAppend bs) = 0#16 := by
  rw [crcAppend, crc16_append, List.foldl_cons, List.foldl_cons, List.foldl_nil, crcByte_lo8, crcByte_hi8]

/-! ### A request in RXBUF (43_validator.md R160 to R165) -/

theorem State.rxFrame_getElem? (s : State) {i : Nat} (h : i < s.len) : s.rxFrame[i]? = some (s.rxByte i) := by
  rw [State.rxFrame, s.rxSlice_getElem? (by omega), Nat.zero_add]

theorem State.rxSlice_eq_rxFrame (s : State) {a b : Nat} (h : b ≤ s.len) :
    s.rxSlice a b = (s.rxFrame.drop a).take (b - a) := by
  apply List.ext_getElem?
  intro i
  by_cases hi : i < b - a
  · rw [s.rxSlice_getElem? hi, List.getElem?_take_of_lt hi, List.getElem?_drop, s.rxFrame_getElem? (by omega)]
  · rw [List.getElem?_eq_none (by simpa using hi), List.getElem?_eq_none (by simp; omega)]

section
variable {s : State} {a fc : Byte} {data : List Byte} (hframe : s.rxFrame = crcAppend (a :: fc :: data))
include hframe

theorem State.len_of_rxFrame : s.len = data.length + 4 := by
  simpa using congrArg List.length hframe

theorem State.rxByte_zero_of_rxFrame : s.rxByte 0 = a := by
  have h := s.rxFrame_getElem? (i := 0) (by have := State.len_of_rxFrame hframe; omega)
  simpa [hframe, crcAppend] using h.symm

theorem State.rxByte_one_of_rxFrame : s.rxByte 1 = fc := by
  have h := s.rxFrame_getElem? (i := 1) (by have := State.len_of_rxFrame hframe; omega)
  simpa [hframe, crcAppend] using h.symm

theorem valPdu_of_rxFrame : valPdu s = { addr := a, fc := fc, data := data } := by
  have hlen := State.len_of_rxFrame hframe
  have hdata : s.rxSlice 2 (s.len - 2) = data := by
    rw [s.rxSlice_eq_rxFrame (by omega), hframe, hlen]
    simp [crcAppend]
  rw [valPdu, State.rxByte_zero_of_rxFrame hframe, State.rxByte_one_of_rxFrame hframe, hdata]

/-- A request with a good CRC, addressed to the slave or to all, passes the validator. -/
theorem validate_of_rxFrame (ha : a = s.addr ∨ a = 0#8) :
    validate s = some { addr := a, fc := fc, data := data } := by
  rw [validate_eq_some, valPdu_of_rxFrame hframe, hframe, crc16_crcAppend, State.rxByte_zero_of_rxFrame hframe]
  refine ⟨?_, rfl⟩
  rintro (hshort | hcrc | ⟨hown, hbcast⟩)
  · have := State.len_of_rxFrame hframe
    omega
  · exact hcrc rfl
  · exact ha.elim hown hbcast

end

/-! ### The response to a request (46_engine_commands.md R236) -/

/-- Cells from TXLEN on keep what they held (45_response_builder.md R212). -/
theorem State.build_txByte_above (s : State) (a fc : Byte) (payload : List Byte) {i : Nat}
    (h : (s.build a fc payload).txlen ≤ i) : (s.build a fc payload).txByte i = s.txByte i := by
  have hout : ¬ (0 ≤ i ∧ i < 0 + (response a fc payload).length) := by
    simp only [State.build_txlen, truncate, List.length_take, Config.maxPayload, response_length] at h ⊢
    omega
  simp only [State.txByte, cellValue, State.build_resets, State.build_txbuf, Memory.read?_writeBytes, if_neg hout]

/-- The end of PRC once the dispatcher has answered: store, BLD, SND, REL (R236). -/
def State.answer (s : State) (tx : Bool) (a fc : Byte) (payload : List Byte) (store : List Word) : State :=
  (State.transmit tx ((s.withStore store).build a fc payload) a).release

@[simp] theorem State.answer_txlen (s : State) (tx : Bool) (a fc : Byte) (payload : List Byte) (store : List Word) :
    (s.answer tx a fc payload store).txlen = (truncate payload).length + 4 :=
  State.transmit_txlen ..

@[simp] theorem State.answer_txFrame (s : State) (tx : Bool) (a fc : Byte) (payload : List Byte) (store : List Word) :
    (s.answer tx a fc payload store).txFrame = response a fc payload :=
  (State.transmit_txFrame ..).trans (State.build_txFrame ..)

theorem State.answer_txByte_above (s : State) (tx : Bool) (a fc : Byte) (payload : List Byte) (store : List Word)
    {i : Nat} (h : (s.answer tx a fc payload store).txlen ≤ i) :
    (s.answer tx a fc payload store).txByte i = s.txByte i := by
  have hbuilt := (s.withStore store).build_txByte_above a fc payload (by simpa using h)
  rw [← show (s.withStore store).txByte i = s.txByte i from rfl, ← hbuilt]
  simp only [State.txByte, State.answer, State.release_resets, State.release_txbuf, State.transmit_resets,
    State.transmit_txbuf]

/-- Everything an answer changes. -/
theorem State.answer_eq (s : State) (tx : Bool) (a fc : Byte) (payload : List Byte) (store : List Word) :
    s.answer tx a fc payload store =
      { s with
        txbuf := (s.answer tx a fc payload store).txbuf
        txlen := (truncate payload).length + 4
        store := store
        sent := if a ≠ 0#8 ∨ tx = true then s.sent ++ [(s.answer tx a fc payload store).txFrame] else s.sent
        len := 0
        rxState := .idle } := by
  rw [State.answer_txFrame, ← State.build_txFrame (s.withStore store)]
  rcases State.transmit_cases tx ((s.withStore store).build a fc payload) a with ⟨hsent, heq⟩ | ⟨rfl, rfl, heq⟩
  · rw [if_pos (show a ≠ 0#8 ∨ tx = true from hsent), State.answer, heq]
    rfl
  · rw [if_neg (by decide), State.answer, heq]
    rfl

theorem process_of_validate (d : DispatchFn) (tx : Bool) {s : State} {p : Pdu} (hc : s.rxState = .complete)
    (hv : validate s = some p) :
    process d tx s =
      s.answer tx p.addr (d p.fc p.data s.store).1 (d p.fc p.data s.store).2.1 (d p.fc p.data s.store).2.2 := by
  simp only [process, if_pos hc, hv]
  rfl

/-- The whole next state of PRC for a request with a good CRC, addressed to the slave or to all, from what the
dispatcher answers. -/
theorem exec_prc_of_rxFrame {s : State} {a fc fc' : Byte} {data payload : List Byte} {store : List Word}
    (hc : s.rxState = .complete) (ha : a = s.addr ∨ a = 0#8) (hframe : s.rxFrame = crcAppend (a :: fc :: data))
    (hdsp : dsp Config.excBadLength fc data s.store = (fc', payload, store)) (hfits : payload.length ≤ 252) :
    ∃ t, exec .prc s = .next t ∧
      t = { s with
        txbuf := t.txbuf
        txlen := payload.length + 4
        store := store
        sent := if a = 0#8 then s.sent else s.sent ++ [t.txFrame]
        len := 0
        rxState := .idle
        status := .accepted } ∧
      t.txFrame = crcAppend (a :: fc' :: payload) ∧
      (∀ i, payload.length + 4 ≤ i → t.txByte i = s.txByte i) := by
  have hprocess : process (dsp Config.excBadLength) Config.bcastTx s = s.answer Config.bcastTx a fc' payload store := by
    rw [process_of_validate _ _ hc (validate_of_rxFrame hframe ha), hdsp]
  have hwhole : truncate payload = payload := truncate_eq hfits
  refine ⟨(s.answer Config.bcastTx a fc' payload store).accept, ?_, ?_, ?_, ?_⟩
  · rw [exec_prc, hprocess]
  · have hsent : (a ≠ 0#8 ∨ Config.bcastTx = true) ↔ ¬ a = 0#8 := by simp
    conv_lhs => rw [State.answer_eq, hwhole, if_congr hsent rfl rfl, ite_not]
    rfl
  · exact (State.answer_txFrame ..).trans (by rw [response, hwhole])
  · intro i hi
    exact s.answer_txByte_above Config.bcastTx a fc' payload store (by rwa [State.answer_txlen, hwhole])

/-! ### The statements of 30_encoding.md -/

/-- Settles O43: the handler succeeds inside the window, and the offsets are those of its payload. -/
theorem readAnswersTheRegisters : Obligations.ReadAnswersTheRegisters := by
  intro s d0 d1 d2 d3 hpos hmax hlo hhi
  have hrhr := rhr_inWindow Config.excBadLength hpos hmax hlo hhi
  generalize 256 * d0.toNat + d1.toNat = start at *
  generalize 256 * d2.toNat + d3.toNat = count at *
  have hlen : (storeRead s.store (start - 40000) count).length = count := storeRead_length (by omega)
  refine ⟨readPayload (storeRead s.store (start - 40000) count), ?_, ?_, ?_, ?_⟩
  · rw [exec_rhr, hrhr]
    rfl
  · rw [readPayload_length, hlen]
  · rw [readPayload, hlen]
    rfl
  · intro k hk
    have hv : s.store[start - 40000 + k]? = some s.store[start - 40000 + k] := List.getElem?_eq_getElem (by omega)
    exact ⟨_, hv, readPayload_getElem? ((storeRead_getElem? _ hk).trans hv)⟩

/-- Settles O45: the handler succeeds inside the window, and its store is the one word set. -/
theorem writeSetsTheWordAndEchoes : Obligations.WriteSetsTheWordAndEchoes := by
  intro s d0 d1 d2 d3 hlo hhi
  have hwsr := wsr_inWindow Config.excBadLength (d2 := d2) (d3 := d3) hlo hhi
  refine ⟨_, exec_wsr .., ?_⟩
  rw [hwsr]
  exact ⟨rfl, List.length_set, List.getElem?_set_self (by omega), fun i hi => List.getElem?_set_ne hi.symm⟩

/-- Settles O53: every cause ends the handler with its code, and PRC answers what DSP makes of it. -/
theorem exceptionIsAnsweredByFiveBytes : Obligations.ExceptionIsAnsweredByFiveBytes := by
  intro s a fc code data hc ha hframe hcause
  have hexception : handler Config.excBadLength fc data s.store = .exception code := by
    rcases hcause with ⟨h3, h6, rfl⟩ | ⟨rfl | rfl, hlen, rfl⟩ | ⟨d0, d1, d2, d3, rfl, rfl, rfl, hrange⟩ |
      ⟨d0, d1, d2, d3, rfl, rfl, rfl, haddr⟩
    · exact handler_unmatched _ _ _ h3 h6
    · rw [handler_rhr, rhr_badLength _ _ hlen]
    · rw [handler_wsr, wsr_badLength _ _ hlen]
    · rw [handler_rhr, rhr_outsideWindow _ hrange]
    · rw [handler_wsr, wsr_outsideWindow _ haddr]
  exact exec_prc_of_rxFrame hc ha hframe (dsp_of_exception hexception) (by simp)

end Sys2Proof.Machine
end

section
/-! SUPPORT. When CRC.BYTE leaves a register whose high half is zero, and what CRC.BLK, CRC.APP and CRC.CHK do. Then the
statements of 40_crc16.md. -/

namespace Sys2Proof.Machine

/-! ### The CRC run backwards (40_crc16.md R100, R102) -/

/-- The bit shifted out comes back at the top, which is the polynomial's own. -/
theorem crcBit_getLsbD_top (c : Word) : (crcBit c).getLsbD 15 = c.getLsbD 0 := by
  rw [crcBit]
  split
  · next hodd => simpa using hodd.symm
  · next heven => simpa using heven

theorem crcBit_of_even {c : Word} (heven : c.getLsbD 0 = false) : crcBit c = c >>> 1 := by
  rw [crcBit, heven, if_neg Bool.false_ne_true]

/-- A result without its top bit comes from an even register, by a plain shift. -/
theorem crcBit_eq_iff {c v : Word} (hv : v.getLsbD 15 = false) : crcBit c = v ↔ c = v <<< 1 := by
  constructor
  · rintro rfl
    have heven : c.getLsbD 0 = false := (crcBit_getLsbD_top c).symm.trans hv
    rw [crcBit_of_even heven]
    ext i hi
    rcases i with _ | i
    · simpa using heven
    · simp [Nat.add_comm, BitVec.getLsbD_eq_getElem hi]
  · rintro rfl
    rw [crcBit_of_even (by simp)]
    ext i hi
    rcases Nat.lt_or_eq_of_le (Nat.le_of_lt_succ hi) with hlt | rfl
    · simp [show 1 + i < 16 by omega]
    · simpa using hv.symm

/-- One backward step for a low half that up to seven shifts have brought down. -/
theorem crcBit_eq_be16_shiftLeft {c : Word} {l : Byte} {k : Nat} (hk : k < 8) :
    crcBit c = be16 0#8 l <<< k ↔ c = be16 0#8 l <<< (k + 1) := by
  have htop : (be16 0#8 l <<< k).getLsbD 15 = false := by
    rw [BitVec.getLsbD_shiftLeft, be16_getLsbD, if_neg (by omega)]
    simp
  rw [crcBit_eq_iff htop, BitVec.shiftLeft_add]

theorem eq_be16_iff {w : Word} {h l : Byte} : w = be16 h l ↔ l = lo8 w ∧ h = hi8 w := by
  constructor
  · rintro rfl
    exact ⟨(lo8_be16 h l).symm, (hi8_be16 h l).symm⟩
  · rintro ⟨rfl, rfl⟩
    exact (BitVec.extractLsb'_append_extractLsb' (w := 8) (len := 8)).symm

/-- CRC.BYTE leaves a zero high half from one register only: the byte below, the half that is left above. -/
theorem crcByte_eq_be16_zero {c : Word} {b l : Byte} : crcByte c b = be16 0#8 l ↔ c = be16 l b := by
  have hshift : be16 0#8 l <<< 8 = be16 l b ^^^ b.zeroExtend 16 := by
    apply BitVec.eq_of_getLsbD_eq
    intro i hi
    rw [BitVec.getLsbD_shiftLeft, BitVec.getLsbD_xor, be16_getLsbD, be16_getLsbD]
    rcases Nat.lt_or_ge i 8 with hlow | hhigh
    · simp [hlow, hi]
    · simp [show ¬ i < 8 by omega, show i - 8 < 8 by omega, hi, BitVec.getLsbD_of_ge b i hhigh]
  rw [← BitVec.shiftLeft_zero (be16 0#8 l), crcByte]
  simp only [crcBit_eq_be16_shiftLeft, Nat.reduceLT, Nat.reduceAdd]
  rw [hshift, BitVec.xor_left_inj]

/-- The residue after two more bytes is zero for one pair only: the CRC so far, low byte first. -/
theorem crc16_append_pair_eq_zero {bs : List Byte} {x y : Byte} :
    crc16 (bs ++ [x, y]) = 0#16 ↔ x = lo8 (crc16 bs) ∧ y = hi8 (crc16 bs) := by
  calc crc16 (bs ++ [x, y]) = 0#16
      ↔ crcByte (crcByte (crc16 bs) x) y = be16 0#8 0#8 := by rw [crc16_append]; rfl
    _ ↔ crcByte (crc16 bs) x = be16 0#8 y := crcByte_eq_be16_zero
    _ ↔ crc16 bs = be16 y x := crcByte_eq_be16_zero
    _ ↔ x = lo8 (crc16 bs) ∧ y = hi8 (crc16 bs) := eq_be16_iff

theorem crcCheck_iff {f : List Byte} : crcCheck f = true ↔ crc16 f = 0#16 := decide_eq_true_iff

/-! ### The operations executed alone (40_crc16.md R103, R105, R107) -/

theorem exec_crcByte (c : Word) (b : Byte) (s : State) :
    exec (.crcByte c b) s = .next { s with latch := { s.latch with crc := crcByte c b } } := rfl

theorem exec_crcBlk (bs : List Byte) (s : State) :
    exec (.crcBlk bs) s = .next { s with latch := { s.latch with crc := crc16 bs } } := rfl

theorem exec_crcApp (bs : List Byte) (s : State) :
    exec (.crcApp bs) s = .next { s with latch := { s.latch with seq := crcAppend bs } } := rfl

theorem exec_crcChk (bs : List Byte) (s : State) :
    exec (.crcChk bs) s = .next { s with latch := { s.latch with chk := crcCheck bs } } := rfl

theorem crc16_concat (bs : List Byte) (b : Byte) : crc16 (bs ++ [b]) = crcByte (crc16 bs) b := crc16_append bs [b]

/-! ### The statements of 40_crc16.md -/

/-- Settles O37: the register's two bytes, low byte first, cancel it. -/
theorem crcRoundTripIsZero : Obligations.CrcRoundTripIsZero := crc16_crcAppend

/-- Settles O39: the last two bytes are found by running the register backwards from zero. -/
theorem residueTestComparesTrailingBytes : Obligations.ResidueTestComparesTrailingBytes :=
  ⟨fun _ => crcCheck_iff, rfl, fun _ _ _ => crcCheck_iff.trans crc16_append_pair_eq_zero⟩

/-- Settles O36: the register is `crc16`, and one more byte is one more CRC.BYTE. -/
theorem crcBlockAppendCheckResults : Obligations.CrcBlockAppendCheckResults := by
  refine ⟨fun s => exec_crcBlk [] s, fun s bs b => ⟨crc16 bs, crcByte (crc16 bs) b, ?_, ?_, ?_⟩,
    fun s bs => ⟨crc16 bs, exec_crcBlk bs s, exec_crcApp bs s, exec_crcChk bs s⟩⟩
  · exact exec_crcBlk bs s
  · exact exec_crcByte (crc16 bs) b s
  · rw [exec_crcBlk, crc16_concat]

end Sys2Proof.Machine
end

section
/-! SUPPORT. The receiver's micro-operations and RXB, the timer's and TCK: what each answers when executed alone, and
what a receiver byte does to RXBUF. Then the statements of 42_receiver.md. -/

namespace Sys2Proof.Machine

/-! ### The operations executed alone (42_receiver.md R142 to R148, 41_timer.md R125, R126) -/

theorem exec_rxb (b : Byte) (s : State) : exec (.rxb b) s = .next { receive b s with status := .accepted } := rfl

theorem exec_rxStart (b : Byte) (s : State) : exec (.rxStart b) s = .next (rxStart b s) := rfl

/-- With a cell left to write (20_memory.md R65). -/
theorem exec_rxAppend (b : Byte) {s : State} (h : s.len < 256) : exec (.rxAppend b) s = .next (rxAppend b s) :=
  if_pos h

theorem exec_rxDrop (b : Byte) (s : State) : exec (.rxDrop b) s = .next s := rfl

theorem exec_rxExpire (s : State) : exec .rxExpire s = .next s.expire := rfl

/-- The state TMR.DEC leaves (41_timer.md R126). -/
def State.decrement (s : State) : State :=
  { s with cnt := s.cnt - 1, latch := { s.latch with expiry := expiryOf s.cnt } }

theorem exec_tmrDec (s : State) : exec .tmrDec s = .next s.decrement := rfl

theorem exec_tck (s : State) : exec .tck s = .next { tick s with status := .accepted } := rfl

/-! ### What becomes of a byte (42_receiver.md R142) -/

theorem receive_of_idle (b : Byte) {s : State} (h : s.rxState = .idle) : receive b s = rxStart b s := by
  simp only [receive, h]

theorem receive_of_room (b : Byte) {s : State} (h : s.rxState = .receiving) (hroom : s.len < 256) :
    receive b s = rxAppend b s := by
  simp only [receive, h, Config.cap, if_pos hroom]

/-- Outside IDLE, and outside RECEIVING with room, no byte is taken. -/
theorem receive_of_dropped (b : Byte) {s : State} (hidle : s.rxState ≠ .idle)
    (hroom : ¬ (s.rxState = .receiving ∧ s.len < 256)) : receive b s = s := by
  rcases receive_cases b s with ⟨h, -⟩ | ⟨h, hlen, -⟩ | ⟨-, hsame⟩
  · exact absurd h hidle
  · exact absurd ⟨h, hlen⟩ hroom
  · exact hsame

/-- RXB is one of three micro-operations, selected by receiver state and room (R142). -/
theorem exec_rxb_selects (s : State) (b : Byte) :
    ∃ i t, (i = .rxStart b ∨ i = .rxAppend b ∨ i = .rxDrop b) ∧
      (i = .rxStart b ↔ s.rxState = .idle) ∧ (i = .rxAppend b ↔ s.rxState = .receiving ∧ s.len < 256) ∧
      exec i s = .next t ∧ exec (.rxb b) s = .next { t with status := .accepted } := by
  by_cases hidle : s.rxState = .idle
  · refine ⟨.rxStart b, rxStart b s, .inl rfl, iff_of_true rfl hidle, ?_, exec_rxStart b s, ?_⟩
    · simp [hidle]
    · rw [exec_rxb, receive_of_idle b hidle]
  · by_cases hroom : s.rxState = .receiving ∧ s.len < 256
    · obtain ⟨hreceiving, hlen⟩ := hroom
      refine ⟨.rxAppend b, rxAppend b s, .inr (.inl rfl), ?_, iff_of_true rfl ⟨hreceiving, hlen⟩,
        exec_rxAppend b hlen, ?_⟩
      · simp [hidle]
      · rw [exec_rxb, receive_of_room b hreceiving hlen]
    · refine ⟨.rxDrop b, s, .inr (.inr rfl), ?_, ?_, exec_rxDrop b s, ?_⟩
      · simp [hidle]
      · simp [hroom]
      · rw [exec_rxb, receive_of_dropped b hidle hroom]

theorem rxStart_rxByte (b : Byte) (s : State) (j : Nat) :
    (rxStart b s).rxByte j = if 0 = j then b else s.rxByte j :=
  cellValue_write ..

theorem rxAppend_rxByte (b : Byte) (s : State) (j : Nat) :
    (rxAppend b s).rxByte j = if s.len = j then b else s.rxByte j :=
  cellValue_write ..

/-! ### What becomes of a tick (41_timer.md R125, R126) -/

theorem tick_of_inert {s : State} (h : s.cnt = 0) : tick s = s := if_pos h

/-- The receiver's answer to the expiry latch of a decrement: RX.EXPIRE when it is raised (R125). -/
def State.answerExpiry (s : State) : State := if s.latch.expiry = true then s.expire else s

theorem exec_rxExpire_answerExpiry (s : State) :
    if s.latch.expiry = true then exec .rxExpire s = .next s.answerExpiry else s.answerExpiry = s := by
  by_cases hexpiry : s.latch.expiry = true
  · rw [if_pos hexpiry, exec_rxExpire, State.answerExpiry, if_pos hexpiry]
  · rw [if_neg hexpiry, State.answerExpiry, if_neg hexpiry]

/-- An armed timer is decremented and the expiry answered; only the latch of that decrement is not kept. -/
theorem tick_of_armed {s : State} (h : s.cnt ≠ 0) : tick s = { s.decrement.answerExpiry with latch := s.latch } := by
  have hlatch : s.decrement.latch.expiry = expiryOf s.cnt := rfl
  rw [tick, if_neg h, State.answerExpiry, hlatch]
  by_cases hexpiry : expiryOf s.cnt = true
  · rw [if_pos hexpiry, if_pos hexpiry]
    rfl
  · rw [if_neg hexpiry, if_neg hexpiry]
    rfl

/-! ### The statements of 42_receiver.md -/

/-- Settles O34: the byte by its selection, the tick by its decrement and the answer to the expiry. -/
theorem byteAndTickAreTheirMicroOperations : Obligations.ByteAndTickAreTheirMicroOperations := by
  intro s b
  refine ⟨exec_rxb_selects s b, fun hinert => ?_, fun harmed => ?_⟩
  · rw [exec_tck, tick_of_inert hinert]
  · refine ⟨s.decrement, s.decrement.answerExpiry, exec_tmrDec s, exec_rxExpire_answerExpiry s.decrement, ?_⟩
    rw [exec_tck, tick_of_armed harmed]

/-- Settles O27: RXB in IDLE is RX.START, whose one write is at cell 0. -/
theorem firstByteStartsAFrame : Obligations.FirstByteStartsAFrame := by
  intro s b hidle
  refine ⟨rxStart b s, exec_rxStart b s, ?_, rfl, ?_, fun j hj => ?_⟩
  · rw [exec_rxb, receive_of_idle b hidle]
  · rw [rxStart_rxByte, if_pos rfl]
  · rw [rxStart_rxByte, if_neg hj.symm]

/-- Settles O28: RXB in RECEIVING with room is RX.APPEND, whose one write is at the cell LEN named. -/
theorem furtherByteIsAppended : Obligations.FurtherByteIsAppended := by
  intro s b hreceiving hroom
  refine ⟨rxAppend b s, exec_rxAppend b hroom, ?_, rfl, ?_, fun j hj => ?_⟩
  · rw [exec_rxb, receive_of_room b hreceiving hroom]
  · rw [rxAppend_rxByte, if_pos rfl]
  · rw [rxAppend_rxByte, if_neg hj.symm]

/-- Settles O29: none of the three cases is IDLE or RECEIVING with room. -/
theorem unacceptedByteChangesNothing : Obligations.UnacceptedByteChangesNothing := by
  intro s b hdropped
  have hidle : s.rxState ≠ .idle := by
    rcases hdropped with ⟨h, -⟩ | h | h <;> simp [h]
  have hroom : ¬ (s.rxState = .receiving ∧ s.len < 256) := by
    rintro ⟨hreceiving, hlen⟩
    rcases hdropped with ⟨-, hfull⟩ | h | h
    · omega
    · simp [h] at hreceiving
    · simp [h] at hreceiving
  refine ⟨exec_rxDrop b s, ?_⟩
  rw [exec_rxb, receive_of_dropped b hidle hroom]

end Sys2Proof.Machine
end

section
/-! SUPPORT. DISCARD, and PRC of a frame the validator does not pass. Then the statement of 43_validator.md. -/

namespace Sys2Proof.Machine

theorem exec_discard (s : State) : exec .discard s = .next s.release := rfl

/-- PRC of a completed frame that does not pass is DISCARD, whatever stands at the dispatcher port: the dispatcher is not
called (43_validator.md R166). -/
theorem process_of_validate_none (d : DispatchFn) (tx : Bool) {s : State} (hc : s.rxState = .complete)
    (hv : validate s = none) : process d tx s = s.release := by
  simp only [process, if_pos hc, hv]

/-- Settles O42: each of the three causes makes the validator answer discard, and the release is PRC's whole effect. -/
theorem failedFrameIsDiscardedSilently : Obligations.FailedFrameIsDiscardedSilently := by
  intro s
  refine ⟨exec_discard s, fun hc hfail => ?_⟩
  have hv : validate s = none := validate_eq_none.mpr hfail
  rw [exec_prc, process_of_validate_none _ _ hc hv]
  rfl

end Sys2Proof.Machine
end

section
/-! SUPPORT. The dispatcher: what DSP answers for each end of its handler, and that only a good write changes the store.
Then the statements of 44_dispatcher_and_store.md. -/

namespace Sys2Proof.Machine

/-! ### The meanings of FCX and DSP -/

theorem exec_fcx (fc : Byte) (data : List Byte) (s : State) :
    exec (.fcx fc data) s = .next (s.latchHandled (.exception 0x01#8)) := rfl

theorem exec_dsp (fc : Byte) (data : List Byte) (s : State) :
    exec (.dsp fc data) s = .next { s with
      store := (dsp Config.excBadLength fc data s.store).2.2
      latch := { s.latch with reply :=
        ⟨(dsp Config.excBadLength fc data s.store).1, (dsp Config.excBadLength fc data s.store).2.1⟩ } } := rfl

/-- The wire operation a function code stands for is the handler that it selects (R182). -/
theorem exec_wireOperation (fc : Byte) (data : List Byte) (s : State) :
    exec (if fc = 0x03#8 then Instr.rhr data else if fc = 0x06#8 then .wsr data else .fcx fc data) s =
      .next (s.latchHandled (handler Config.excBadLength fc data s.store)) := by
  by_cases h3 : fc = 0x03#8
  · rw [if_pos h3, h3, handler_rhr, exec_rhr]
  · by_cases h6 : fc = 0x06#8
    · rw [if_neg h3, if_pos h6, h6, handler_wsr, exec_wsr]
    · rw [if_neg h3, if_neg h6, handler_unmatched _ _ _ h3 h6, exec_fcx]

/-- DSP of a request whose handler succeeds (R182). -/
theorem dsp_of_success {e fc : Byte} {data payload : List Byte} {store store' : List Word}
    (h : handler e fc data store = .success payload store') : dsp e fc data store = (fc, payload, store') := by
  simp only [dsp, h, respond]

/-- However the handler ends, DSP returns the store it leaves. -/
theorem dsp_store (e fc : Byte) (data : List Byte) (store : List Word) :
    (dsp e fc data store).2.2 = (handler e fc data store).storeAfter store := by
  cases h : handler e fc data store with
  | success payload store' => rw [dsp_of_success h, Handled.storeAfter]
  | exception code => rw [dsp_of_exception h, Handled.storeAfter]

/-! ### What a handler does to the store (R194) -/

/-- A read never changes the store. -/
theorem rhr_storeAfter (e : Byte) (data : List Byte) (store : List Word) :
    (rhr e data store).storeAfter store = store := by
  unfold rhr
  split
  · dsimp only
    split
    · rfl
    · split <;> rfl
  · rfl

/-- A write changes the store only at an address inside the window, and there it sets one word. -/
theorem wsr_storeAfter_ne {e : Byte} {data : List Byte} {store : List Word}
    (h : (wsr e data store).storeAfter store ≠ store) :
    ∃ d0 d1 d2 d3, data = [d0, d1, d2, d3] ∧ 40000 ≤ 256 * d0.toNat + d1.toNat ∧
      256 * d0.toNat + d1.toNat < 40000 + store.length ∧
      (wsr e data store).storeAfter store = store.set (256 * d0.toNat + d1.toNat - 40000) (be16 d2 d3) := by
  by_cases hlen : data.length = 4
  · obtain ⟨d0, d1, d2, d3, rfl⟩ := List.length_eq_four.mp hlen
    by_cases hin : 40000 ≤ 256 * d0.toNat + d1.toNat ∧ 256 * d0.toNat + d1.toNat < 40000 + store.length
    · obtain ⟨hlo, hhi⟩ := hin
      refine ⟨d0, d1, d2, d3, rfl, hlo, hhi, ?_⟩
      rw [wsr_inWindow e hlo hhi]
      rfl
    · rw [wsr_outsideWindow e (by omega)] at h
      exact absurd rfl h
  · rw [wsr_badLength e store hlen] at h
    exact absurd rfl h

/-- Of all function codes, only that of WSR has a handler that changes the store. -/
theorem handler_storeAfter_ne {e fc : Byte} {data : List Byte} {store : List Word}
    (h : (handler e fc data store).storeAfter store ≠ store) :
    fc = 0x06#8 ∧ ∃ d0 d1 d2 d3, data = [d0, d1, d2, d3] ∧ 40000 ≤ 256 * d0.toNat + d1.toNat ∧
      256 * d0.toNat + d1.toNat < 40000 + store.length ∧
      (handler e fc data store).storeAfter store = store.set (256 * d0.toNat + d1.toNat - 40000) (be16 d2 d3) := by
  by_cases h6 : fc = 0x06#8
  · subst h6
    exact ⟨rfl, wsr_storeAfter_ne h⟩
  · by_cases h3 : fc = 0x03#8
    · rw [h3, handler_rhr, rhr_storeAfter] at h
      exact absurd rfl h
    · rw [handler_unmatched e data store h3 h6] at h
      exact absurd rfl h

/-! ### What a step does to the store -/

theorem receive_store (b : Byte) (s : State) : (receive b s).store = s.store := by
  rcases receive_cases b s with ⟨-, h⟩ | ⟨-, -, h⟩ | ⟨-, h⟩ <;> rw [h]
  · exact rxStart_store s b
  · exact rxAppend_store s b

theorem tick_store (s : State) : (tick s).store = s.store := by
  rcases tick_cases s with ⟨-, h⟩ | ⟨-, h⟩ | ⟨-, h⟩ <;> rw [h]

/-- The frame passes when it is long enough, its residue is zero, and it is addressed to the slave or to all. -/
theorem validate_eq_valPdu_iff {s : State} :
    validate s = some (valPdu s) ↔
      4 ≤ s.len ∧ crc16 s.rxFrame = 0#16 ∧ (s.rxByte 0 = s.addr ∨ s.rxByte 0 = 0#8) := by
  rw [validate_eq_some, not_or, not_or, not_and_or, not_lt, not_not, not_not, not_not, and_iff_left rfl]
  rfl

/-- PRC changes the store only for a frame the validator passes, and then as DSP does. -/
theorem process_store_ne {d : DispatchFn} {tx : Bool} {s : State} (h : (process d tx s).store ≠ s.store) :
    s.rxState = .complete ∧ validate s = some (valPdu s) ∧
      (process d tx s).store = (d (valPdu s).fc (valPdu s).data s.store).2.2 := by
  rcases process_cases d tx s with ⟨-, heq⟩ | ⟨-, -, heq⟩ | ⟨p, hc, hv, heq⟩
  · exact absurd (by rw [heq]) h
  · exact absurd (by rw [heq, State.release_store]) h
  · obtain rfl := (validate_eq_some.mp hv).2
    refine ⟨hc, hv, ?_⟩
    rw [heq, State.release_store, State.transmit_store, State.build_store, State.withStore_store]

/-- Only a step of PRC changes the store. -/
theorem step_store_ne {s t : State} (hstep : step s = .next t) (h : t.store ≠ s.store) :
    ∃ w rest, s.inbox = w :: rest ∧ decode (.cmd w) = .ok .prc ∧
      t = (process (dsp Config.excBadLength) Config.bcastTx (s.withInbox rest)).accept := by
  rcases step_cases s with ⟨-, heq⟩ | ⟨w, rest, hin, ⟨e, -, heq⟩ | ⟨-, heq⟩ | ⟨a, r, -, -, heq⟩ |
    ⟨a, r, thr, -, -, heq⟩ | ⟨b, -, heq⟩ | ⟨-, heq⟩ | ⟨hprc, heq⟩⟩ <;>
  obtain rfl := Host.Outcome.next.inj (hstep.symm.trans heq)
  · exact absurd rfl h
  · exact absurd (State.refuse_store _) h
  · exact absurd (resetCore_store _) h
  · exact absurd (State.refuse_store _) h
  · exact absurd (configure_store _ a thr) h
  · exact absurd (receive_store b _) h
  · exact absurd (tick_store _) h
  · exact ⟨w, rest, hin, hprc, rfl⟩

/-- A frame that carries four data bytes is eight bytes long, and they are its cells 2 to 5. -/
theorem State.cells_of_rxSlice_four {s : State} {d0 d1 d2 d3 : Byte} (h : s.rxSlice 2 (s.len - 2) = [d0, d1, d2, d3]) :
    s.len = 8 ∧ s.rxByte 2 = d0 ∧ s.rxByte 3 = d1 ∧ s.rxByte 4 = d2 ∧ s.rxByte 5 = d3 := by
  have hlen : s.len = 8 := by
    have := congrArg List.length h
    simp only [State.rxSlice_length, List.length_cons, List.length_nil] at this
    omega
  rw [hlen] at h
  have hcells : [s.rxByte 2, s.rxByte 3, s.rxByte 4, s.rxByte 5] = [d0, d1, d2, d3] := h
  exact ⟨hlen, by simpa using hcells⟩

/-- PRC with the reference dispatcher changes the store only for a good frame of WSR with an address inside the window,
and then at the word addressed. -/
theorem process_dsp_store_ne {e : Byte} {tx : Bool} {s : State} (h : (process (dsp e) tx s).store ≠ s.store) :
    s.rxState = .complete ∧ s.len = 8 ∧ crc16 s.rxFrame = 0#16 ∧ (s.rxByte 0 = s.addr ∨ s.rxByte 0 = 0#8) ∧
      s.rxByte 1 = 0x06#8 ∧ 40000 ≤ 256 * (s.rxByte 2).toNat + (s.rxByte 3).toNat ∧
      256 * (s.rxByte 2).toNat + (s.rxByte 3).toNat < 40000 + s.store.length ∧
      (process (dsp e) tx s).store =
        s.store.set (256 * (s.rxByte 2).toNat + (s.rxByte 3).toNat - 40000) (be16 (s.rxByte 4) (s.rxByte 5)) := by
  obtain ⟨hc, hv, hstore⟩ := process_store_ne h
  rw [hstore, dsp_store] at h
  rw [hstore, dsp_store]
  obtain ⟨hfc, d0, d1, d2, d3, hdata, hlo, hhi, hset⟩ := handler_storeAfter_ne h
  obtain ⟨hlen, rfl, rfl, rfl, rfl⟩ := State.cells_of_rxSlice_four hdata
  obtain ⟨-, hcrc, haddr⟩ := validate_eq_valPdu_iff.mp hv
  exact ⟨hc, hlen, hcrc, haddr, hfc, hlo, hhi, hset⟩

/-! ### The statements of 44_dispatcher_and_store.md -/

/-- Settles O44: each cause ends the handler with its code, which goes to the latch. -/
theorem handlerRefusals : Obligations.HandlerRefusals := by
  refine ⟨fun s d0 d1 d2 d3 h => ?_, fun s d0 d1 d2 d3 h => ?_, fun s data h => ⟨?_, ?_⟩,
    fun s fc data _ _ => exec_fcx fc data s⟩
  · rw [exec_rhr, rhr_outsideWindow _ h]
    rfl
  · rw [exec_wsr, wsr_outsideWindow _ h]
    rfl
  · rw [exec_rhr, rhr_badLength _ _ h]
    rfl
  · rw [exec_wsr, wsr_badLength _ _ h]
    rfl

/-- Settles O46: by how the selected handler ends, which is what its latch then shows. -/
theorem dispatchFlagsExceptions : Obligations.DispatchFlagsExceptions := by
  intro s fc data
  have hwire := exec_wireOperation fc data s
  have hdsp := exec_dsp fc data s
  cases h : handler Config.excBadLength fc data s.store with
  | success payload store' =>
    rw [h] at hwire
    rw [dsp_of_success h] at hdsp
    refine ⟨_, _, _, rfl, hwire, hdsp, fun p hp => ?_, fun c hc => ?_⟩
    · rw [← HandlerResult.success.inj hp]
    · cases hc
  | exception code =>
    rw [h] at hwire
    rw [dsp_of_exception h] at hdsp
    refine ⟨_, _, _, rfl, hwire, hdsp, fun p hp => ?_, fun c hc => ⟨rfl, ?_⟩⟩
    · cases hp
    · rw [← HandlerResult.exception.inj hc]

/-- Settles O51: the read inside the window succeeds, and PRC answers its payload. -/
theorem readRequestIsAnswered : Obligations.ReadRequestIsAnswered := by
  intro s a d0 d1 d2 d3 hc ha hframe hpos hmax hlo hhi
  have hdsp := dsp_of_success ((handler_rhr _ _ _).trans (rhr_inWindow Config.excBadLength hpos hmax hlo hhi))
  generalize 256 * d0.toNat + d1.toNat = start at *
  generalize 256 * d2.toNat + d3.toNat = count at *
  have hwords : (storeRead s.store (start - 40000) count).length = count := storeRead_length (by omega)
  have hlen : (readPayload (storeRead s.store (start - 40000) count)).length = 1 + 2 * count := by
    rw [readPayload_length, hwords]
  obtain ⟨t, hexec, ht, htx, habove⟩ := exec_prc_of_rxFrame hc ha hframe hdsp (by omega)
  have htxlen : (readPayload (storeRead s.store (start - 40000) count)).length + 4 = 2 * count + 5 := by omega
  rw [htxlen] at ht habove
  refine ⟨t, hexec, ht, ?_, fun i hi => habove i ?_⟩
  · rw [htx, readPayload, hwords]
    rfl
  · rwa [ht] at hi

/-- Settles O52: the write inside the window succeeds, and its echo makes the response the request. -/
theorem writeRequestIsAnswered : Obligations.WriteRequestIsAnswered := by
  intro s a d0 d1 d2 d3 hc ha hframe hlo hhi
  have hdsp := dsp_of_success ((handler_wsr _ [d0, d1, d2, d3] _).trans (wsr_inWindow Config.excBadLength hlo hhi))
  obtain ⟨t, hexec, ht, htx, habove⟩ := exec_prc_of_rxFrame hc ha hframe hdsp (by simp)
  have hecho : t.txFrame = s.rxFrame := htx.trans hframe.symm
  rw [hecho] at ht
  exact ⟨t, hexec, ht, hecho, habove⟩

/-- Settles O54: the frame passes the validator, so PRC ends with the answer that DSP gives, and SND skips address 0. -/
theorem broadcastIsBuiltAndNotSent : Obligations.BroadcastIsBuiltAndNotSent := by
  intro s hc hlen hcrc hbcast
  have hv : validate s = some (valPdu s) := validate_eq_valPdu_iff.mpr ⟨hlen, hcrc, .inr hbcast⟩
  have haddr : (valPdu s).addr = 0#8 := hbcast
  refine ⟨_, _, exec_dsp .., exec_prc s, ?_⟩
  rw [process_of_validate _ _ hc hv, haddr]
  refine ⟨?_, ?_, rfl, rfl, State.answer_txFrame ..⟩
  · rw [State.answer_eq]
    rfl
  · rw [State.answer_eq]
    rfl

/-- Settles O16: the step is a PRC, and it finds the frame as it stood before the command left the port. -/
theorem storeChangesOnlyByAValidWrite : Obligations.StoreChangesOnlyByAValidWrite := by
  intro s t hstep hne
  obtain ⟨w, rest, hin, hprc, rfl⟩ := step_store_ne hstep hne
  exact ⟨w, rest, hin, hprc, process_dsp_store_ne (s := s.withInbox rest) hne⟩

end Sys2Proof.Machine
end

section
/-! SUPPORT. The length and the residue of what BLD lays down, for any payload. Then the statement of
45_response_builder.md. -/

namespace Sys2Proof.Machine

theorem exec_bld (a fc : Byte) (payload : List Byte) (s : State) :
    exec (.bld a fc payload) s = .next (s.build a fc payload) := rfl

/-- TXLEN counts the payload as cut (R211), address, function code and CRC. -/
theorem State.build_txlen_eq_min (s : State) (a fc : Byte) (payload : List Byte) :
    (s.build a fc payload).txlen = min payload.length 252 + 4 := by
  rw [State.build_txlen, truncate, List.length_take, min_comm]

/-- Everything BLD changes. -/
theorem State.build_eq (s : State) (a fc : Byte) (payload : List Byte) :
    s.build a fc payload =
      { s with txbuf := (s.build a fc payload).txbuf, txlen := min payload.length 252 + 4 } := by
  rw [← State.build_txlen_eq_min s a fc payload]
  rfl

/-- No payload gives a response outside the lengths of a frame (R213). -/
theorem State.build_txlen_bounds (s : State) (a fc : Byte) (payload : List Byte) :
    4 ≤ (s.build a fc payload).txlen ∧ (s.build a fc payload).txlen ≤ 256 := by
  rw [State.build_txlen_eq_min]
  omega

/-- No payload gives a response with a residue (R213). -/
theorem State.crcCheck_build_txFrame (s : State) (a fc : Byte) (payload : List Byte) :
    crcCheck (s.build a fc payload).txFrame = true := by
  rw [State.build_txFrame, response, crcCheck_iff, crc16_crcAppend]

/-- Settles O48: the state BLD leaves is `State.build`, and each clause is one of the facts about it. -/
theorem buildLaysDownTheResponse : Obligations.BuildLaysDownTheResponse := by
  intro s a fc p
  obtain ⟨hmin, hmax⟩ := s.build_txlen_bounds a fc p
  exact ⟨s.build a fc p, exec_bld a fc p s, s.build_eq a fc p, s.build_txFrame a fc p,
    fun _ habove => s.build_txByte_above a fc p habove, hmin, hmax, s.crcCheck_build_txFrame a fc p⟩

end Sys2Proof.Machine
end

section
/-! SUPPORT. PRC by the verdicts of the checks, and the operations that answer a frame, run one after another. Then the
statement of 46_engine_commands.md. -/

namespace Sys2Proof.Machine

/-! ### What the latches hold (assumption log 4) -/

/-- The state with other results in its latches. -/
def State.withLatch (s : State) (l : Latch) : State := { s with latch := l }

/-- The state VAL.PDU leaves when `p` is what it extracts (43_validator.md R165). -/
def State.latchPdu (s : State) (p : Pdu) : State := s.withLatch { s.latch with pdu := p }

@[simp] theorem State.withLatch_latch (s : State) (l : Latch) : (s.withLatch l).latch = l := rfl

/-! ### The operations executed alone (43_validator.md R161 to R165, 45_response_builder.md R214, R216) -/

theorem exec_valLen (s : State) : exec .valLen s = .next (s.latchVerdict (valLen s.len)) := rfl

theorem exec_valCrc (s : State) : exec .valCrc s = .next (s.latchVerdict (valCrc s.rxFrame)) := rfl

theorem exec_valAddr (s : State) : exec .valAddr s = .next (s.latchVerdict (valAddr (s.rxByte 0) s.addr)) := rfl

theorem exec_valPdu (s : State) : exec .valPdu s = .next (s.latchPdu (valPdu s)) := rfl

theorem exec_snd (a : Byte) (s : State) : exec (.snd a) s = .next (State.transmit Config.bcastTx s a) := rfl

theorem exec_rel (s : State) : exec .rel s = .next s.release := rfl

/-! ### The validator by its verdicts (43_validator.md R160, R167) -/

theorem validate_eq_none_iff_verdict {s : State} :
    validate s = none ↔
      valLen s.len = .discard ∨ valCrc s.rxFrame = .discard ∨ valAddr (s.rxByte 0) s.addr = .discard := by
  rw [validate_eq_none, valLen_eq_discard, valCrc_eq_discard, valAddr_eq_discard]

theorem validate_of_pass {s : State} (hlen : valLen s.len = .pass) (hcrc : valCrc s.rxFrame = .pass)
    (haddr : valAddr (s.rxByte 0) s.addr = .pass) : validate s = some (valPdu s) := by
  simp [validate, hlen, hcrc, haddr]

/-! ### The operations that answer a frame (46_engine_commands.md R236) -/

/-- DSP after VAL.PDU writes the store, and only the latches differ besides. -/
theorem exec_dsp_latchPdu {s : State} {p : Pdu} {fc' : Byte} {payload : List Byte} {store : List Word}
    (hdsp : dsp Config.excBadLength p.fc p.data s.store = (fc', payload, store)) :
    ∃ l, l.reply = ⟨fc', payload⟩ ∧ exec (.dsp p.fc p.data) (s.latchPdu p) = .next ((s.withStore store).withLatch l) := by
  have hstore : dsp Config.excBadLength p.fc p.data (s.latchPdu p).store = (fc', payload, store) := hdsp
  rw [exec_dsp, hstore]
  exact ⟨_, rfl, rfl⟩

theorem State.transmit_withLatch (tx : Bool) (s : State) (l : Latch) (a : Byte) :
    State.transmit tx (s.withLatch l) a = (State.transmit tx s a).withLatch l := by
  unfold State.transmit
  split <;> rfl

theorem State.answer_latch (s : State) (tx : Bool) (a fc : Byte) (payload : List Byte) (store : List Word) :
    (s.answer tx a fc payload store).latch = s.latch := by
  rw [State.answer_eq]

/-- BLD, SND and REL after DSP: the answer, whatever the latches hold. -/
theorem execAll_bld_snd_rel (s : State) (l : Latch) (a fc : Byte) (payload : List Byte) (store : List Word) :
    execAll [.bld a fc payload, .snd a, .rel] ((s.withStore store).withLatch l) =
      .next ((s.answer Config.bcastTx a fc payload store).withLatch l) := by
  have hbuild : ((s.withStore store).withLatch l).build a fc payload =
      ((s.withStore store).build a fc payload).withLatch l := rfl
  simp only [execAll, exec_bld, exec_snd, exec_rel, hbuild, State.transmit_withLatch]
  rfl

/-! ### PRC by cases (46_engine_commands.md R236, R237) -/

theorem exec_prc_of_not_complete {s : State} (hc : s.rxState ≠ .complete) : exec .prc s = .next s.accept := by
  rw [exec_prc, process, if_neg hc]

theorem exec_prc_of_validate_none {s : State} (hc : s.rxState = .complete) (hv : validate s = none) :
    exec .prc s = .next s.release.accept := by
  rw [exec_prc, process_of_validate_none _ _ hc hv]

/-- PRC of a frame that passes is VAL.PDU, DSP, BLD, SND and REL, whose results in the latches it does not keep. -/
theorem exec_prc_of_validate_some {s : State} (hc : s.rxState = .complete) (hv : validate s = some (valPdu s)) :
    ∃ u v t, exec .valPdu s = .next u ∧ exec (.dsp u.latch.pdu.fc u.latch.pdu.data) u = .next v ∧
      execAll [.bld u.latch.pdu.addr v.latch.reply.fc v.latch.reply.payload, .snd u.latch.pdu.addr, .rel] v = .next t ∧
      exec .prc s = .next { t with latch := s.latch, status := .accepted } := by
  rcases hdsp : dsp Config.excBadLength (valPdu s).fc (valPdu s).data s.store with ⟨fc', payload, store⟩
  obtain ⟨l, hreply, hexec⟩ := exec_dsp_latchPdu hdsp
  refine ⟨_, _, _, exec_valPdu s, hexec, execAll_bld_snd_rel .., ?_⟩
  rw [exec_prc, process_of_validate _ _ hc hv, hdsp, State.withLatch_latch, hreply,
    ← State.answer_latch s Config.bcastTx (valPdu s).addr fc' payload store]
  rfl

/-- Settles O50: the verdicts decide as the validator does, and each outcome is a case of PRC. -/
theorem processIsItsMicroOperations : Obligations.ProcessIsItsMicroOperations := by
  intro s
  refine ⟨exec_prc_of_not_complete, fun hc =>
    ⟨_, _, _, exec_valLen s, exec_valCrc s, exec_valAddr s, fun hdiscard => ?_, fun hlen hcrc haddr => ?_⟩⟩
  · exact ⟨s.release, exec_discard s, exec_prc_of_validate_none hc (validate_eq_none_iff_verdict.mpr hdiscard)⟩
  · exact exec_prc_of_validate_some hc (validate_of_pass hlen hcrc haddr)

end Sys2Proof.Machine
end

section
/-! SUPPORT. The fields of a command word, and what each op and each function byte decodes to. Then the statements of
30_encoding.md. -/

namespace Sys2Proof

/-! ### The fields of a command word (30_encoding.md R79) -/

@[simp] theorem cmdOp_mkCmd (op : BitVec 4) (b : Byte) (x : BitVec 32) : cmdOp (mkCmd op b x) = op :=
  BitVec.extractLsb'_append_eq_left

@[simp] theorem cmdB_mkCmd (op : BitVec 4) (b : Byte) (x : BitVec 32) : cmdB (mkCmd op b x) = b := by
  rw [cmdB, mkCmd, BitVec.extractLsb'_append_eq_of_add_le (by decide), BitVec.extractLsb'_append_eq_left]

@[simp] theorem cmdW_mkCmd (op : BitVec 4) (b : Byte) (x : BitVec 32) : cmdW (mkCmd op b x) = x := by
  rw [cmdW, mkCmd, BitVec.extractLsb'_append_eq_of_add_le (by decide), BitVec.extractLsb'_append_eq_right]

theorem mkCmd_fields (w : CmdWord) : mkCmd (cmdOp w) (cmdB w) (cmdW w) = w := by
  have hlow : cmdB w ++ cmdW w = w.extractLsb' 0 40 :=
    BitVec.extractLsb'_append_extractLsb'_eq_extractLsb' (by decide)
  rw [mkCmd, hlow]
  exact BitVec.extractLsb'_append_extractLsb' (w := 4) (len := 40)

theorem mkCmd_and (op op' : BitVec 4) (b b' : Byte) (x x' : BitVec 32) :
    mkCmd op b x &&& mkCmd op' b' x' = mkCmd (op &&& op') (b &&& b') (x &&& x') :=
  BitVec.and_append.trans (congrArg _ BitVec.and_append)

/-- A word with the same op, whose other fields are zero or as given, sets no bit that is clear. -/
theorem mkCmd_and_eq {w : CmdWord} {b : Byte} {x : BitVec 32} (hb : b = 0 ∨ b = cmdB w) (hx : x = 0 ∨ x = cmdW w) :
    mkCmd (cmdOp w) b x &&& w = mkCmd (cmdOp w) b x := by
  have hb' : b &&& cmdB w = b := by rcases hb with rfl | rfl <;> simp
  have hx' : x &&& cmdW w = x := by rcases hx with rfl | rfl <;> simp
  calc mkCmd (cmdOp w) b x &&& w = mkCmd (cmdOp w) b x &&& mkCmd (cmdOp w) (cmdB w) (cmdW w) := by rw [mkCmd_fields]
    _ = mkCmd (cmdOp w) b x := by rw [mkCmd_and, BitVec.and_self, hb', hx']

/-! ### What a code decodes to (30_encoding.md R80, R85) -/

/-- The op selects the command, whose operands are the fields as they stand. -/
theorem decodeCmd_eq_ok_iff {w : CmdWord} {i : Instr} :
    decodeCmd w = .ok i ↔
      (cmdOp w = 0#4 ∧ i = .rst) ∨ (cmdOp w = 1#4 ∧ i = .cfg (cmdB w) (cmdW w)) ∨
      (cmdOp w = 2#4 ∧ i = .rxb (cmdB w)) ∨ (cmdOp w = 3#4 ∧ i = .tck) ∨ (cmdOp w = 4#4 ∧ i = .prc) := by
  constructor
  · intro h
    unfold decodeCmd at h
    split at h <;> simp_all [← BitVec.toNat_inj]
  · rintro (⟨hop, rfl⟩ | ⟨hop, rfl⟩ | ⟨hop, rfl⟩ | ⟨hop, rfl⟩ | ⟨hop, rfl⟩) <;> rw [decodeCmd, hop] <;> rfl

theorem decodeCmd_of_reserved {w : CmdWord} (h : 5 ≤ (cmdOp w).toNat) :
    decodeCmd w = .error (.reservedOp (cmdOp w)) := by
  unfold decodeCmd
  split
  case h_6 => rfl
  all_goals omega

theorem Instr.eq_of_format_frame {i : Instr} (h : i.format = .frame) :
    (∃ data, i = .rhr data) ∨ (∃ data, i = .wsr data) ∨ ∃ fc data, i = .fcx fc data := by
  cases i <;> cases h <;> simp

theorem Instr.eq_of_format_cmd {i : Instr} (h : i.format = .cmd) :
    i = .rst ∨ (∃ a r, i = .cfg a r) ∨ (∃ b, i = .rxb b) ∨ i = .tck ∨ i = .prc := by
  cases i <;> cases h <;> simp

theorem Instr.wf_fcx_iff {fc : Byte} {data : List Byte} :
    (Instr.fcx fc data).wf = true ↔ fc ≠ 0x03#8 ∧ fc ≠ 0x06#8 ∧ data.length ≤ 252 := by
  simp [Instr.wf, unmatched, dataFits, and_assoc]

/-- A PDU decodes to the one well-formed wire operation whose code it is. -/
theorem decodePdu_eq_ok_iff {bytes : List Byte} {i : Instr} :
    decodePdu bytes = .ok i ↔ i.wf = true ∧ i.format = .frame ∧ encode i = some (.pdu bytes) := by
  constructor
  · intro h
    unfold decodePdu at h
    split at h
    · cases h
    · split_ifs at h with hfits h3 h6 <;> cases h
      · exact ⟨decide_eq_true hfits, rfl, by rw [h3]; rfl⟩
      · exact ⟨decide_eq_true hfits, rfl, by rw [h6]; rfl⟩
      · exact ⟨Instr.wf_fcx_iff.mpr ⟨h3, h6, hfits⟩, rfl, rfl⟩
  · rintro ⟨hwf, hformat, hcode⟩
    rcases Instr.eq_of_format_frame hformat with ⟨data, rfl⟩ | ⟨data, rfl⟩ | ⟨fc, data, rfl⟩ <;> cases hcode
    · have hfits : data.length ≤ 252 := of_decide_eq_true hwf
      simp [decodePdu, hfits]
    · have hfits : data.length ≤ 252 := of_decide_eq_true hwf
      simp [decodePdu, hfits]
    · obtain ⟨h3, h6, hfits⟩ := Instr.wf_fcx_iff.mp hwf
      simp [decodePdu, h3, h6, hfits]

/-- A command's code is a command word that decodes to the command. -/
theorem decodeCmd_encode {i : Instr} (h : i.format = .cmd) : ∃ w, encode i = some (.cmd w) ∧ decodeCmd w = .ok i := by
  rcases Instr.eq_of_format_cmd h with rfl | ⟨a, r, rfl⟩ | ⟨b, rfl⟩ | rfl | rfl <;>
    refine ⟨_, rfl, decodeCmd_eq_ok_iff.mpr ?_⟩ <;> simp

/-- A wire operation's code is a PDU. -/
theorem encode_of_frame {i : Instr} (h : i.format = .frame) : ∃ bytes, encode i = some (.pdu bytes) := by
  rcases Instr.eq_of_format_frame h with ⟨data, rfl⟩ | ⟨data, rfl⟩ | ⟨fc, data, rfl⟩ <;> exact ⟨_, rfl⟩

/-- The word an assembler emits for what `w` means: its op, and its other fields as they stand or zero. -/
theorem encode_of_decodeCmd {w : CmdWord} {i : Instr} (h : decodeCmd w = .ok i) :
    i.wf = true ∧ i.format = .cmd ∧
      ∃ b x, encode i = some (.cmd (mkCmd (cmdOp w) b x)) ∧ (b = 0 ∨ b = cmdB w) ∧ (x = 0 ∨ x = cmdW w) := by
  rcases decodeCmd_eq_ok_iff.mp h with ⟨hop, rfl⟩ | ⟨hop, rfl⟩ | ⟨hop, rfl⟩ | ⟨hop, rfl⟩ | ⟨hop, rfl⟩ <;>
    rw [hop] <;> refine ⟨rfl, rfl, _, _, rfl, ?_, ?_⟩ <;> simp

/-! ### The statements of 30_encoding.md -/

/-- Settles O4: by the two formats that have a code. -/
theorem decodeOfEncodeIsIdentity : Obligations.DecodeOfEncodeIsIdentity := by
  intro i hwf hmicro
  cases hformat : i.format with
  | cmd =>
    obtain ⟨w, hcode, hdecode⟩ := decodeCmd_encode hformat
    exact ⟨.cmd w, hcode, hdecode⟩
  | frame =>
    obtain ⟨bytes, hcode⟩ := encode_of_frame hformat
    exact ⟨.pdu bytes, hcode, decodePdu_eq_ok_iff.mpr ⟨hwf, hformat, hcode⟩⟩
  | micro => exact absurd hformat hmicro

/-- Settles O5: a PDU is the code of what it decodes to, and a command word differs from the code of what it decodes to
only in ignored bits. -/
theorem encodeOfDecodeIsCanonical : Obligations.EncodeOfDecodeIsCanonical := by
  refine ⟨fun bytes i h => decodePdu_eq_ok_iff.mp h, fun w i h => ?_⟩
  obtain ⟨hwf, hformat, b, x, hcode, hb, hx⟩ := encode_of_decodeCmd h
  obtain ⟨w', hcode', hdecode⟩ := decodeCmd_encode hformat
  obtain rfl : w' = mkCmd (cmdOp w) b x := by simpa [hcode] using hcode'.symm
  exact ⟨hwf, hformat, _, hcode, hdecode, cmdOp_mkCmd .., mkCmd_and_eq hb hx⟩

/-- Settles O1: each op by its row of the decoder, and the two codes with operands by the number of their word. -/
theorem commandWordFields : Obligations.CommandWordFields := by
  refine ⟨fun w => ⟨fun hop => ?_, fun hop => ?_, fun hop => ?_, fun hop => ?_, fun hop => ?_, decodeCmd_of_reserved⟩,
    rfl, rfl, rfl, fun a => ⟨_, rfl, ?_⟩, fun a r => ⟨_, rfl, ?_⟩⟩
  · exact decodeCmd_eq_ok_iff.mpr (.inl ⟨hop, rfl⟩)
  · exact decodeCmd_eq_ok_iff.mpr (.inr (.inl ⟨hop, rfl⟩))
  · exact decodeCmd_eq_ok_iff.mpr (.inr (.inr (.inl ⟨hop, rfl⟩)))
  · exact decodeCmd_eq_ok_iff.mpr (.inr (.inr (.inr (.inl ⟨hop, rfl⟩))))
  · exact decodeCmd_eq_ok_iff.mpr (.inr (.inr (.inr (.inr ⟨hop, rfl⟩))))
  · rw [Laws.Layout.mkCmd_toNat]; simp
  · rw [Laws.Layout.mkCmd_toNat]; simp; omega

/-- Settles O2: each function byte stands first in the code of its operation. -/
theorem functionByteSelectsOperation : Obligations.FunctionByteSelectsOperation := by
  intro fc data hfits
  refine ⟨?_, ?_, fun h3 h6 => ?_⟩
  · rintro rfl
    exact decodePdu_eq_ok_iff (i := .rhr data).mpr ⟨decide_eq_true hfits, rfl, rfl⟩
  · rintro rfl
    exact decodePdu_eq_ok_iff (i := .wsr data).mpr ⟨decide_eq_true hfits, rfl, rfl⟩
  · exact decodePdu_eq_ok_iff.mpr ⟨Instr.wf_fcx_iff.mpr ⟨h3, h6, hfits⟩, rfl, rfl⟩

/-- Settles O3: the decoder computes on each of the words. -/
theorem knownWordsDecode : Obligations.KnownWordsDecode := by
  exact ⟨rfl, rfl, rfl, rfl, rfl, rfl, rfl, rfl, rfl⟩

end Sys2Proof
end

section
/-! SUPPORT. The threshold of a baud rate, what a tick does by the count, and CFG accepted or refused. Then the statements
of 41_timer.md that speak of one operation, and that of 46_engine_commands.md section 2. -/

namespace Sys2Proof.Machine

/-! ### The threshold (41_timer.md R120, R121) -/

theorem thrOfBaud_of_fast {r : Nat} (h : 19200 < r) : thrOfBaud r = 35 := if_pos h

theorem thrOfBaud_of_slow {r : Nat} (h : r ≤ 19200) : thrOfBaud r = 770000 / r := if_neg (Nat.not_lt.mpr h)

/-- 64166 ticks at 12 baud is the most, and 35 above 19200 baud the least. -/
theorem thrOfBaud_range {r : Nat} (h : 12 ≤ r) : 1 ≤ thrOfBaud r ∧ thrOfBaud r ≤ 65535 := by
  rcases Nat.lt_or_ge 19200 r with hfast | hslow
  · rw [thrOfBaud_of_fast hfast]
    decide
  · have hmost : 770000 / r ≤ 770000 / 12 := Nat.div_le_div_left h (by decide)
    have hleast : 770000 / 19200 ≤ 770000 / r := Nat.div_le_div_left hslow (by omega)
    rw [thrOfBaud_of_slow hslow]
    omega

theorem thrOfBaud_antitone {r r' : Nat} (hpos : 0 < r) (h : r ≤ r') (hslow : r' ≤ 19200) :
    thrOfBaud r' ≤ thrOfBaud r := by
  rw [thrOfBaud_of_slow hslow, thrOfBaud_of_slow (h.trans hslow)]
  exact Nat.div_le_div_left h hpos

theorem exec_tmrCfg_of_refused {baud : BitVec 32} (s : State) (h : baud.toNat < 12) :
    exec (.tmrCfg baud) s = .next s.refuse := by
  simp only [exec, execTmrCfg, tmrCfg, if_pos h]

theorem exec_tmrCfg_of_legal {baud : BitVec 32} (s : State) (h : 12 ≤ baud.toNat) :
    exec (.tmrCfg baud) s = .next { s with thr := thrOfBaud baud.toNat } := by
  simp only [exec, execTmrCfg, tmrCfg, if_neg (Nat.not_lt.mpr h)]

theorem exec_tmrLoad (s : State) : exec .tmrLoad s = .next s.loadTimer := rfl

/-! ### A tick (41_timer.md R125, 42_receiver.md R148) -/

theorem tick_of_last {s : State} (h : s.cnt = 1) : tick s = { s with cnt := 0, rxState := s.rxState.onExpiry } := by
  rcases tick_cases s with ⟨h', -⟩ | ⟨-, heq⟩ | ⟨h', -⟩
  · omega
  · exact heq
  · omega

theorem tick_of_earlier {s : State} (h : 2 ≤ s.cnt) : tick s = { s with cnt := s.cnt - 1 } := by
  rcases tick_cases s with ⟨h', -⟩ | ⟨h', -⟩ | ⟨-, heq⟩
  · omega
  · omega
  · exact heq

/-- The expiry moves INIT and RECEIVING only. -/
theorem RxState.onExpiry_eq (x : RxState) :
    x.onExpiry = if x = .init then .idle else if x = .receiving then .complete else x := by
  cases x <;> rfl

/-! ### CFG (46_engine_commands.md R232, R233) -/

theorem exec_cfg_of_none {a : Byte} {baud : BitVec 32} (s : State) (h : cfgThreshold a baud = none) :
    exec (.cfg a baud) s = .next s.refuse := by
  simp only [exec, execCfg, h]

theorem exec_cfg_of_some {a : Byte} {baud : BitVec 32} {thr : Nat} (s : State) (h : cfgThreshold a baud = some thr) :
    exec (.cfg a baud) s = .next (configure a thr s).accept := by
  simp only [exec, execCfg, h]

theorem cfgThreshold_of_legal {a : Byte} {baud : BitVec 32} (hmin : 1 ≤ a.toNat) (hmax : a.toNat ≤ 247)
    (hbaud : 12 ≤ baud.toNat) : cfgThreshold a baud = some (thrOfBaud baud.toNat) :=
  cfgThreshold_eq_some.mpr ⟨hmin, hmax, hbaud, rfl⟩

theorem cfgThreshold_of_illegal {a : Byte} {baud : BitVec 32}
    (h : a.toNat < 1 ∨ 247 < a.toNat ∨ baud.toNat < 12) : cfgThreshold a baud = none := by
  cases hthr : cfgThreshold a baud with
  | none => rfl
  | some thr =>
    obtain ⟨hmin, hmax, hbaud, -⟩ := cfgThreshold_eq_some.mp hthr
    omega

/-- Settles O21: by the legality of the operands. -/
theorem configureOrRefuse : Obligations.ConfigureOrRefuse := by
  intro s a baud
  refine ⟨fun hillegal => exec_cfg_of_none s (cfgThreshold_of_illegal hillegal), fun hmin hmax hbaud => ?_⟩
  rw [exec_cfg_of_some s (cfgThreshold_of_legal hmin hmax hbaud)]
  rfl

/-! ### The statements of 41_timer.md -/

/-- Settles O23: the threshold by its two cases, and the decrement's expiry from the count it starts at. -/
theorem timerMicroOperationResults : Obligations.TimerMicroOperationResults := by
  intro s baud
  refine ⟨exec_tmrCfg_of_refused s, exec_tmrCfg_of_legal s, exec_tmrLoad s, fun hpos => ?_⟩
  have hexpiry : expiryOf s.cnt = decide (s.cnt - 1 = 0) := decide_eq_decide.mpr (by omega)
  rw [exec_tmrDec, State.decrement, hexpiry]

/-- Settles O24: TMR.CFG writes `thrOfBaud`, which is in range and antitone. -/
theorem thresholdIsLegalAndFalling : Obligations.ThresholdIsLegalAndFalling := by
  intro s baud hbaud
  obtain ⟨hmin, hmax⟩ := thrOfBaud_range hbaud
  refine ⟨_, exec_tmrCfg_of_legal s hbaud, hmin, hmax, thrOfBaud_of_fast, fun baud' hle hslow => ?_⟩
  exact ⟨_, exec_tmrCfg_of_legal s (hbaud.trans hle), thrOfBaud_antitone (by omega) hle hslow⟩

/-- Settles O25: the tick by the count, the expiry by the receiver state. -/
theorem tickAndExpireResults : Obligations.TickAndExpireResults := by
  refine ⟨fun s => ⟨fun hinert => ?_, fun hearlier => ?_, fun hlast => ?_⟩,
    fun s => ⟨fun hinit => ?_, fun hreceiving => ?_, fun hstays => ?_⟩⟩
  · rw [exec_tck, tick_of_inert hinert]
  · rw [exec_tck, tick_of_earlier hearlier]
  · rw [exec_tck, tick_of_last hlast, RxState.onExpiry_eq]
  · rw [exec_rxExpire, State.expire, hinit]
    rfl
  · rw [exec_rxExpire, State.expire, hreceiving]
    rfl
  · have hsame : s.rxState.onExpiry = s.rxState := by rcases hstays with h | h <;> rw [h] <;> rfl
    rw [exec_rxExpire, State.expire, hsame]

end Sys2Proof.Machine
end

section
/-! SUPPORT. What each command can make of a state, as a relation with one constructor for each way it can end, and that
a step is one of its rows. Then the statements about every step. -/

namespace Sys2Proof.Machine

/-! ### The effects of the commands -/

/-- `Effect s i t`: the command `i` takes the state `s` to `t`, by receiver state, count, room and the validator's
answer (42_receiver.md R141, R142, 41_timer.md R125, 46_engine_commands.md R232, R233, R236). -/
inductive Effect (s : State) : Instr → State → Prop
  | reset : Effect s .rst (resetCore s).accept
  | refused {a : Byte} {r : BitVec 32} (h : cfgThreshold a r = none) : Effect s (.cfg a r) s.refuse
  | configured {a : Byte} {r : BitVec 32} {thr : Nat} (h : cfgThreshold a r = some thr) :
      Effect s (.cfg a r) (configure a thr s).accept
  | started (b : Byte) (h : s.rxState = .idle) : Effect s (.rxb b) (rxStart b s).accept
  | appended (b : Byte) (h : s.rxState = .receiving) (hroom : s.len < 256) : Effect s (.rxb b) (rxAppend b s).accept
  | dropped (b : Byte) (hidle : s.rxState ≠ .idle) (hroom : ¬ (s.rxState = .receiving ∧ s.len < 256)) :
      Effect s (.rxb b) s.accept
  | inert (h : s.cnt = 0) : Effect s .tck s.accept
  | counted (h : 2 ≤ s.cnt) : Effect s .tck (State.accept { s with cnt := s.cnt - 1 })
  | expired (h : s.cnt = 1) : Effect s .tck (State.accept { s with cnt := 0, rxState := s.rxState.onExpiry })
  | ignored (h : s.rxState ≠ .complete) : Effect s .prc s.accept
  | discarded (h : s.rxState = .complete) (hv : validate s = none) : Effect s .prc s.release.accept
  | answered {fc : Byte} {payload : List Byte} {store : List Word} (h : s.rxState = .complete)
      (hv : validate s = some (valPdu s))
      (hdsp : dsp Config.excBadLength (valPdu s).fc (valPdu s).data s.store = (fc, payload, store)) :
      Effect s .prc (s.answer Config.bcastTx (valPdu s).addr fc payload store).accept

/-- The relation is the meaning of the command. -/
theorem Effect.exec_eq {s t : State} {i : Instr} (h : Effect s i t) : exec i s = .next t := by
  cases h with
  | reset => rfl
  | refused h => exact exec_cfg_of_none s h
  | configured h => exact exec_cfg_of_some s h
  | started b h => rw [exec_rxb, receive_of_idle b h]; rfl
  | appended b h hroom => rw [exec_rxb, receive_of_room b h hroom]; rfl
  | dropped b hidle hroom => rw [exec_rxb, receive_of_dropped b hidle hroom]; rfl
  | inert h => rw [exec_tck, tick_of_inert h]; rfl
  | counted h => rw [exec_tck, tick_of_earlier h]; rfl
  | expired h => rw [exec_tck, tick_of_last h]; rfl
  | ignored h => exact exec_prc_of_not_complete h
  | discarded h hv => exact exec_prc_of_validate_none h hv
  | answered h hv hdsp => rw [exec_prc, process_of_validate _ _ h hv, hdsp]

theorem exists_effect_rxb (s : State) (b : Byte) : ∃ t, Effect s (.rxb b) t := by
  by_cases hidle : s.rxState = .idle
  · exact ⟨_, .started b hidle⟩
  · by_cases hroom : s.rxState = .receiving ∧ s.len < 256
    · obtain ⟨hreceiving, hlen⟩ := hroom
      exact ⟨_, .appended b hreceiving hlen⟩
    · exact ⟨_, .dropped b hidle hroom⟩

theorem exists_effect_tck (s : State) : ∃ t, Effect s .tck t := by
  rcases tick_cases s with ⟨h, -⟩ | ⟨h, -⟩ | ⟨h, -⟩
  · exact ⟨_, .inert h⟩
  · exact ⟨_, .expired h⟩
  · exact ⟨_, .counted h⟩

theorem exists_effect_prc (s : State) : ∃ t, Effect s .prc t := by
  by_cases hc : s.rxState = .complete
  · cases hv : validate s with
    | none => exact ⟨_, .discarded hc hv⟩
    | some p =>
      obtain rfl := (validate_eq_some.mp hv).2
      exact ⟨_, .answered hc hv rfl⟩
  · exact ⟨_, .ignored hc⟩

/-- No command is stuck, in any state (46_engine_commands.md R240). -/
theorem exists_effect (s : State) {i : Instr} (h : i.format = .cmd) : ∃ t, Effect s i t := by
  rcases Instr.eq_of_format_cmd h with rfl | ⟨a, r, rfl⟩ | ⟨b, rfl⟩ | rfl | rfl
  · exact ⟨_, .reset⟩
  · cases hthr : cfgThreshold a r with
    | none => exact ⟨_, .refused hthr⟩
    | some thr => exact ⟨_, .configured hthr⟩
  · exact exists_effect_rxb s b
  · exact exists_effect_tck s
  · exact exists_effect_prc s

theorem exec_eq_next_iff {s t : State} {i : Instr} (h : i.format = .cmd) : exec i s = .next t ↔ Effect s i t := by
  refine ⟨fun hexec => ?_, Effect.exec_eq⟩
  obtain ⟨u, heffect⟩ := exists_effect s h
  rwa [← Host.Outcome.next.inj (heffect.exec_eq.symm.trans hexec)]

/-! ### A step is one of the effects (46_engine_commands.md R240) -/

theorem step_of_inbox_nil {s : State} (h : s.inbox = []) : step s = .next s := by
  simp only [step, State.takeCommand_nil h]

theorem step_of_decode_ok {s : State} {w : CmdWord} {rest : List CmdWord} {i : Instr} (hin : s.inbox = w :: rest)
    (h : decode (.cmd w) = .ok i) : step s = exec i (s.withInbox rest) := by
  simp only [step, State.takeCommand_cons hin, h]

theorem step_of_decode_error {s : State} {w : CmdWord} {rest : List CmdWord} {e : DecodeError}
    (hin : s.inbox = w :: rest) (h : decode (.cmd w) = .error e) : step s = .next (s.withInbox rest).refuse := by
  simp only [step, State.takeCommand_cons hin, h]

theorem format_of_decode_cmd {w : CmdWord} {i : Instr} (h : decode (.cmd w) = .ok i) : i.format = .cmd :=
  (encode_of_decodeCmd h).2.1

/-- Everything a step can do: with no command nothing, with a reserved code a refusal, else the command's effect. -/
theorem step_eq_next_iff {s t : State} :
    step s = .next t ↔
      (s.inbox = [] ∧ t = s) ∨
      (∃ w rest e, s.inbox = w :: rest ∧ decode (.cmd w) = .error e ∧ t = (s.withInbox rest).refuse) ∨
      (∃ w rest i, s.inbox = w :: rest ∧ decode (.cmd w) = .ok i ∧ Effect (s.withInbox rest) i t) := by
  cases hin : s.inbox with
  | nil => simp [step_of_inbox_nil hin, eq_comm]
  | cons w rest =>
    cases hdecode : decode (.cmd w) with
    | error e => simp [step_of_decode_error hin hdecode, hdecode, eq_comm]
    | ok i => simp [step_of_decode_ok hin hdecode, hdecode, exec_eq_next_iff (format_of_decode_cmd hdecode)]

/-- What neither the port nor the report shows is changed only by a command's effect. -/
theorem effect_of_step_ne {α : Type} {f : State → α} (hport : ∀ s rest, f (s.withInbox rest) = f s)
    (hreport : ∀ s, f s.refuse = f s) {s t : State} (hstep : step s = .next t) (hne : f t ≠ f s) :
    ∃ w rest i, s.inbox = w :: rest ∧ decode (.cmd w) = .ok i ∧ Effect (s.withInbox rest) i t := by
  rcases step_eq_next_iff.mp hstep with ⟨-, rfl⟩ | ⟨w, rest, e, -, -, rfl⟩ | heffect
  · exact absurd rfl hne
  · exact absurd ((hreport _).trans (hport s rest)) hne
  · exact heffect

/-- A property that neither the port nor the report shows is kept by every step when every effect keeps it. -/
theorem step_keeps {P : State → Prop} (hport : ∀ {s rest}, P s → P (s.withInbox rest))
    (hreport : ∀ {s}, P s → P s.refuse) (heffect : ∀ {s t i}, Effect s i t → P s → P t) {s t : State}
    (hstep : step s = .next t) (hs : P s) : P t := by
  rcases step_eq_next_iff.mp hstep with ⟨-, rfl⟩ | ⟨w, rest, e, -, -, rfl⟩ | ⟨w, rest, i, -, -, h⟩
  · exact hs
  · exact hreport (hport hs)
  · exact heffect h (hport hs)

/-- Settles O6: the taking of the command is all that step adds. -/
theorem stepRunsTheDecodedCommand : Obligations.StepRunsTheDecodedCommand :=
  ⟨fun _ _ _ _ hin hdecode => step_of_decode_ok hin hdecode, fun _ hin => step_of_inbox_nil hin⟩

/-- Settles O7: the decoder rejects the word by name, and step reports the refusal. -/
theorem reservedCodeIsRefused : Obligations.ReservedCodeIsRefused := by
  intro s w rest hin hop
  exact step_of_decode_error hin (decodeCmd_of_reserved hop)

/-- Settles O8: with no command or a reserved code a step answers at once, and every command has an effect. -/
theorem everyStepAnswersNext : Obligations.EveryStepAnswersNext := by
  intro s
  cases hin : s.inbox with
  | nil => exact ⟨s, step_of_inbox_nil hin⟩
  | cons w rest =>
    cases hdecode : decode (.cmd w) with
    | error e => exact ⟨_, step_of_decode_error hin hdecode⟩
    | ok i =>
      obtain ⟨t, heffect⟩ := exists_effect (s.withInbox rest) (format_of_decode_cmd hdecode)
      exact ⟨t, (step_of_decode_ok hin hdecode).trans heffect.exec_eq⟩

end Sys2Proof.Machine
end

section
/-! SUPPORT. That every command's effect keeps the invariant, operation by operation. Then the statements of 10_state.md
section 4 and of 70_reset_and_hazards.md R281. -/

namespace Sys2Proof.Machine

/-! ### What the invariant does not see: the report and the port -/

theorem SafeState.accept {s : State} (h : SafeState s) : SafeState s.accept where
  invariants := { h.invariants with }
  widths := { h.widths with }
  buffers := { h.buffers with }
  armed_configured := h.armed_configured
  nregs_range := h.nregs_range

theorem SafeState.refuse {s : State} (h : SafeState s) : SafeState s.refuse where
  invariants := { h.invariants with }
  widths := { h.widths with }
  buffers := { h.buffers with }
  armed_configured := h.armed_configured
  nregs_range := h.nregs_range

theorem SafeState.withInbox {s : State} (h : SafeState s) (rest : List CmdWord) : SafeState (s.withInbox rest) where
  invariants := { h.invariants with }
  widths := { h.widths with }
  buffers := { h.buffers with }
  armed_configured := h.armed_configured
  nregs_range := h.nregs_range

/-! ### The invariant, receiver state by receiver state (10_state.md R35) -/

section
variable {s : State} (htx : s.txlen = 0 ∨ 4 ≤ s.txlen ∧ s.txlen ≤ 256)
include htx

theorem Invariants.of_init (hstate : s.rxState = .init) (hlen : s.len = 0) (hcnt : s.cnt ≤ s.thr)
    (hthr : s.cnt = 0 → s.thr = 0) : Invariants s where
  len_le := by omega
  len_zero _ := hlen
  len_pos h := by simp [hstate] at h
  armed h := ⟨.inl hstate, by omega⟩
  receiving_armed h := by simp [hstate] at h
  inert h := by simp [hstate] at h
  configured h := absurd hstate h
  unconfigured _ := hthr
  txlen_range := htx

theorem Invariants.of_idle (hstate : s.rxState = .idle) (hlen : s.len = 0) (hcnt : s.cnt = 0)
    (haddr : 1 ≤ s.addr.toNat ∧ s.addr.toNat ≤ 247 ∧ 1 ≤ s.thr) : Invariants s where
  len_le := by omega
  len_zero _ := hlen
  len_pos h := by simp [hstate] at h
  armed h := absurd hcnt h
  receiving_armed h := by simp [hstate] at h
  inert _ := hcnt
  configured _ := haddr
  unconfigured h := by simp [hstate] at h
  txlen_range := htx

theorem Invariants.of_receiving (hstate : s.rxState = .receiving) (hlen : 1 ≤ s.len ∧ s.len ≤ 256)
    (hcnt : 1 ≤ s.cnt ∧ s.cnt ≤ s.thr) (haddr : 1 ≤ s.addr.toNat ∧ s.addr.toNat ≤ 247 ∧ 1 ≤ s.thr) :
    Invariants s where
  len_le := hlen.2
  len_zero h := by simp [hstate] at h
  len_pos _ := hlen.1
  armed _ := ⟨.inr hstate, hcnt⟩
  receiving_armed _ := by omega
  inert h := by simp [hstate] at h
  configured _ := haddr
  unconfigured h := by simp [hstate] at h
  txlen_range := htx

theorem Invariants.of_complete (hstate : s.rxState = .complete) (hlen : 1 ≤ s.len ∧ s.len ≤ 256) (hcnt : s.cnt = 0)
    (haddr : 1 ≤ s.addr.toNat ∧ s.addr.toNat ≤ 247 ∧ 1 ≤ s.thr) : Invariants s where
  len_le := hlen.2
  len_zero h := by simp [hstate] at h
  len_pos _ := hlen.1
  armed h := absurd hcnt h
  receiving_armed h := by simp [hstate] at h
  inert _ := hcnt
  configured _ := haddr
  unconfigured h := by simp [hstate] at h
  txlen_range := htx

end

/-- Of the widths only that of THR does not follow from R35's items. -/
theorem SafeState.of_invariants {s : State} (hinv : Invariants s) (hthr : s.thr < 2 ^ 16) (hbuf : BuffersHold s)
    (haddr : s.cnt ≠ 0 → 1 ≤ s.addr.toNat ∧ s.addr.toNat ≤ 247)
    (hstore : 1 ≤ s.store.length ∧ s.store.length ≤ 25536) : SafeState s where
  invariants := hinv
  widths :=
    { thr_lt := hthr
      cnt_lt := by
        by_cases hcnt : s.cnt = 0
        · omega
        · obtain ⟨-, -, hle⟩ := hinv.armed hcnt
          omega
      len_lt := by have := hinv.len_le; omega
      txlen_lt := by have := hinv.txlen_range; omega }
  buffers := hbuf
  armed_configured := haddr
  nregs_range := hstore

/-! ### A block that nothing has configured -/

/-- With LEN and TXLEN 0 no cell need have been written. -/
theorem BuffersHold.of_empty {s : State} (hrx : s.rxbuf = []) (htx : s.txbuf = []) (hlen : s.len = 0)
    (htxlen : s.txlen = 0) : BuffersHold s where
  rx_wf := hrx ▸ Memory.wf_nil
  tx_wf := htx ▸ Memory.wf_nil
  rx_written i hi := by omega
  tx_written i hi := by omega

/-- An unconfigured block meets the invariant, whatever its outputs. -/
theorem SafeState.of_unconfigured {s : State} (hstate : s.rxState = .init) (hthr : s.thr = 0) (hlen : s.len = 0)
    (hcnt : s.cnt = 0) (htxlen : s.txlen = 0) (hrx : s.rxbuf = []) (htx : s.txbuf = [])
    (hstore : 1 ≤ s.store.length ∧ s.store.length ≤ 25536) : SafeState s :=
  .of_invariants (.of_init (.inl htxlen) hstate hlen (by omega) fun _ => hthr) (by omega)
    (.of_empty hrx htx hlen htxlen) (absurd hcnt) hstore

theorem State.reset_store_length : State.reset.store.length = Config.nregs := by simp [State.reset]

theorem nregs_range : 1 ≤ Config.nregs ∧ Config.nregs ≤ 25536 := by
  have := Config.nregsPred.isLt
  simp only [Config.nregs]
  omega

/-! ### Written cells, and the size of the store -/

/-- A byte written to the cell after those already written leaves one more cell written. -/
theorem Memory.isSome_read?_write {m : Memory} {n j : Nat} (b : Byte)
    (h : ∀ i, i < n → (Memory.read? m i).isSome = true) (hj : j < n + 1) :
    (Memory.read? (Memory.write m n b) j).isSome = true := by
  rw [Memory.read?_write]
  split
  · rfl
  · exact h j (by omega)

theorem Memory.isSome_read?_writeBytes (m : Memory) {bs : List Byte} {j : Nat} (hj : j < bs.length) :
    (Memory.read? (Memory.writeBytes m 0 bs) j).isSome = true := by
  simp [Memory.read?_writeBytes, hj]

/-- The reference dispatcher keeps the size of the store: a write sets one word. -/
theorem dsp_store_length (e fc : Byte) (data : List Byte) (store : List Word) :
    (dsp e fc data store).2.2.length = store.length := by
  rw [dsp_store]
  by_cases h : (handler e fc data store).storeAfter store = store
  · rw [h]
  · obtain ⟨-, d0, d1, d2, d3, -, -, -, hset⟩ := handler_storeAfter_ne h
    rw [hset, List.length_set]

/-! ### The operations keep the invariant -/

section
variable {s : State} (hs : SafeState s)
include hs

theorem SafeState.resetCore : SafeState (resetCore s) :=
  .of_unconfigured rfl rfl rfl rfl rfl rfl rfl hs.nregs_range

/-- CFG writes a legal address and threshold and starts the wait of power-up. -/
theorem SafeState.configure {a : Byte} {r : BitVec 32} {thr : Nat} (h : cfgThreshold a r = some thr) :
    SafeState (configure a thr s) := by
  obtain ⟨hmin, hmax, hbaud, rfl⟩ := cfgThreshold_eq_some.mp h
  obtain ⟨hpos, hlt⟩ := thrOfBaud_range hbaud
  refine .of_invariants (.of_init hs.invariants.txlen_range rfl rfl le_rfl id) ?_ ?_ (fun _ => ⟨hmin, hmax⟩)
    hs.nregs_range
  · rw [configure_thr]
    omega
  · exact { hs.buffers with rx_written := fun i hi => absurd hi (Nat.not_lt_zero i) }

theorem SafeState.rxStart (b : Byte) (h : s.rxState = .idle) : SafeState (rxStart b s) := by
  obtain ⟨hmin, hmax, hthr⟩ := hs.invariants.configured (by simp [h])
  exact .of_invariants
    (.of_receiving hs.invariants.txlen_range rfl (by simp) (by simpa using hthr) ⟨hmin, hmax, hthr⟩)
    hs.widths.thr_lt
    { hs.buffers with
      rx_wf := Memory.wf_write b hs.buffers.rx_wf (show 0 < 256 by decide)
      rx_written := fun i hi => Memory.isSome_read?_write b (by simp) hi }
    (fun _ => ⟨hmin, hmax⟩) hs.nregs_range

theorem SafeState.rxAppend (b : Byte) (h : s.rxState = .receiving) (hroom : s.len < 256) :
    SafeState (rxAppend b s) := by
  obtain ⟨hmin, hmax, hthr⟩ := hs.invariants.configured (by simp [h])
  exact .of_invariants
    (.of_receiving hs.invariants.txlen_range h (by rw [rxAppend_len]; omega) (by simpa using hthr) ⟨hmin, hmax, hthr⟩)
    hs.widths.thr_lt
    { hs.buffers with
      rx_wf := Memory.wf_write b hs.buffers.rx_wf hroom
      rx_written := fun i hi => Memory.isSome_read?_write b hs.buffers.rx_written hi }
    (fun _ => ⟨hmin, hmax⟩) hs.nregs_range

/-- A tick that is not the last leaves the timer armed. -/
theorem SafeState.count (h : 2 ≤ s.cnt) : SafeState { s with cnt := s.cnt - 1 } := by
  obtain ⟨hstate, -, hle⟩ := hs.invariants.armed (by omega)
  have haddr := hs.armed_configured (by omega)
  refine .of_invariants ?_ hs.widths.thr_lt { hs.buffers with } (fun _ => haddr) hs.nregs_range
  rcases hstate with hinit | hreceiving
  · exact .of_init hs.invariants.txlen_range hinit (hs.invariants.len_zero (.inl hinit)) (by simp; omega)
      (by simp; omega)
  · exact .of_receiving hs.invariants.txlen_range hreceiving
      ⟨hs.invariants.len_pos (.inl hreceiving), hs.invariants.len_le⟩ (by simp; omega)
      (hs.invariants.configured (by simp [hreceiving]))

/-- The last tick ends the wait of power-up or the frame. -/
theorem SafeState.lastTick (h : s.cnt = 1) :
    SafeState { s with cnt := 0, rxState := s.rxState.onExpiry } := by
  obtain ⟨hstate, -, hle⟩ := hs.invariants.armed (by omega)
  obtain ⟨hmin, hmax⟩ := hs.armed_configured (by omega)
  have hconf : 1 ≤ s.addr.toNat ∧ s.addr.toNat ≤ 247 ∧ 1 ≤ s.thr := ⟨hmin, hmax, by omega⟩
  refine .of_invariants ?_ hs.widths.thr_lt { hs.buffers with } (absurd rfl) hs.nregs_range
  rcases hstate with hinit | hreceiving
  · exact .of_idle hs.invariants.txlen_range (by simp [hinit, RxState.onExpiry])
      (hs.invariants.len_zero (.inl hinit)) rfl hconf
  · exact .of_complete hs.invariants.txlen_range (by simp [hreceiving, RxState.onExpiry])
      ⟨hs.invariants.len_pos (.inl hreceiving), hs.invariants.len_le⟩ rfl hconf

theorem SafeState.release (h : s.rxState = .complete) : SafeState s.release :=
  .of_invariants
    (.of_idle hs.invariants.txlen_range rfl rfl (hs.invariants.inert (.inr h)) (hs.invariants.configured (by simp [h])))
    hs.widths.thr_lt { hs.buffers with rx_written := fun i hi => absurd hi (Nat.not_lt_zero i) }
    hs.armed_configured hs.nregs_range

theorem SafeState.withStore {store : List Word} (h : store.length = s.store.length) :
    SafeState (s.withStore store) where
  invariants := { hs.invariants with }
  widths := { hs.widths with }
  buffers := { hs.buffers with }
  armed_configured := hs.armed_configured
  nregs_range := by rw [State.withStore_store, h]; exact hs.nregs_range

/-- Whatever the payload, the response has a frame's length, and all its cells are written. -/
theorem SafeState.build (a fc : Byte) (payload : List Byte) : SafeState (s.build a fc payload) := by
  obtain ⟨hmin, hmax⟩ := s.build_txlen_bounds a fc payload
  refine .of_invariants { hs.invariants with txlen_range := .inr ⟨hmin, hmax⟩ } hs.widths.thr_lt
    { hs.buffers with tx_wf := ?_, tx_written := fun i hi => ?_ } hs.armed_configured hs.nregs_range
  · refine Memory.wf_writeBytes _ hs.buffers.tx_wf ?_
    rw [response_length]
    omega
  · refine Memory.isSome_read?_writeBytes _ ?_
    rw [State.build_txlen_eq_min] at hi
    rw [response_length]
    omega

theorem SafeState.transmit (tx : Bool) (a : Byte) : SafeState (State.transmit tx s a) := by
  rcases State.transmit_cases tx s a with ⟨-, heq⟩ | ⟨-, -, heq⟩ <;> rw [heq]
  · exact {
      invariants := { hs.invariants with }
      widths := { hs.widths with }
      buffers := { hs.buffers with }
      armed_configured := hs.armed_configured
      nregs_range := hs.nregs_range }
  · exact hs

theorem SafeState.answer {store : List Word} (tx : Bool) (a fc : Byte) (payload : List Byte) (h : s.rxState = .complete)
    (hstore : store.length = s.store.length) : SafeState (s.answer tx a fc payload store) :=
  (((hs.withStore hstore).build a fc payload).transmit tx a).release ((State.transmit_rxState ..).trans h)

end

theorem SafeState.effect {s t : State} {i : Instr} (h : Effect s i t) (hs : SafeState s) : SafeState t := by
  cases h with
  | reset => exact hs.resetCore.accept
  | refused _ => exact hs.refuse
  | configured h => exact (hs.configure h).accept
  | started b h => exact (hs.rxStart b h).accept
  | appended b h hroom => exact (hs.rxAppend b h hroom).accept
  | dropped b _ _ => exact hs.accept
  | inert _ => exact hs.accept
  | counted h => exact (hs.count h).accept
  | expired h => exact (hs.lastTick h).accept
  | ignored _ => exact hs.accept
  | discarded h _ => exact (hs.release h).accept
  | @answered fc payload store h _ hdsp =>
    have hstore := dsp_store_length Config.excBadLength (valPdu s).fc (valPdu s).data s.store
    rw [hdsp] at hstore
    exact (hs.answer Config.bcastTx (valPdu s).addr fc payload h hstore).accept

/-! ### The statements of 10_state.md section 4 and 70_reset_and_hazards.md R281 -/

/-- Settles O10: no effect of a command leaves the invariant, and neither does a refusal. -/
theorem everyStepKeepsInvariant : Obligations.EveryStepKeepsInvariant := fun _ _ hs hstep =>
  step_keeps (P := SafeState) (fun h => h.withInbox _) SafeState.refuse SafeState.effect hstep hs

/-- Settles O9: the state of power-up is that of an unconfigured block. -/
theorem powerUpMeetsInvariant : Obligations.PowerUpMeetsInvariant :=
  .of_unconfigured rfl rfl rfl rfl rfl rfl rfl (State.reset_store_length ▸ nregs_range)

/-- Settles O18: the registers as written, and word `i` of the store by its index. -/
theorem powerUpState : Obligations.PowerUpState := by
  obtain ⟨hmin, hmax⟩ := nregs_range
  rw [← State.reset_store_length] at hmin hmax
  refine ⟨rfl, rfl, rfl, rfl, rfl, rfl, rfl, hmin, hmax, fun i hi => ?_⟩
  rw [State.reset_store_length] at hi
  simp [State.reset, hi]

end Sys2Proof.Machine
end

section
/-! SUPPORT. What the effects of the commands do to STATE, to CNT, to SENT and to the latches. Then the statements about
what a step may change. -/

namespace Sys2Proof.Machine

/-! ### STATE (42_receiver.md R141) -/

/-- CFG with operands it accepts (46_engine_commands.md R232). -/
def IsLegalCfg (i : Instr) : Prop :=
  ∃ (a : Byte) (r : BitVec 32), i = .cfg a r ∧ 1 ≤ a.toNat ∧ a.toNat ≤ 247 ∧ 12 ≤ r.toNat

theorem isLegalCfg_of_threshold {a : Byte} {r : BitVec 32} {thr : Nat} (h : cfgThreshold a r = some thr) :
    IsLegalCfg (.cfg a r) := by
  obtain ⟨hmin, hmax, hbaud, -⟩ := cfgThreshold_eq_some.mp h
  exact ⟨a, r, rfl, hmin, hmax, hbaud⟩

/-- The rows of the transition table: the command that takes the row, and the STATE it leads to. -/
inductive TransitionRow (s : State) : Instr → RxState → Prop
  | reset : TransitionRow s .rst .init
  | configured {i : Instr} (h : IsLegalCfg i) : TransitionRow s i .init
  | poweredUp (hcnt : s.cnt = 1) (h : s.rxState = .init) : TransitionRow s .tck .idle
  | started (b : Byte) (h : s.rxState = .idle) : TransitionRow s (.rxb b) .receiving
  | completed (hcnt : s.cnt = 1) (h : s.rxState = .receiving) : TransitionRow s .tck .complete
  | released (h : s.rxState = .complete) : TransitionRow s .prc .idle

theorem Effect.transitionRow {s t : State} {i : Instr} (heffect : Effect s i t) (hne : t.rxState ≠ s.rxState) :
    TransitionRow s i t.rxState := by
  cases heffect with
  | reset => exact .reset
  | configured h => exact .configured (isLegalCfg_of_threshold h)
  | started b h => exact .started b h
  | expired hcnt =>
    rw [State.accept_rxState] at hne ⊢
    cases hstate : s.rxState with
    | init => exact .poweredUp hcnt hstate
    | receiving => exact .completed hcnt hstate
    | idle => exact absurd (by rw [hstate]; rfl) hne
    | complete => exact absurd (by rw [hstate]; rfl) hne
  | discarded h _ => exact .released h
  | answered h _ _ => exact .released h
  | refused _ | appended _ _ _ | dropped _ _ _ | inert _ | counted _ | ignored _ => exact absurd rfl hne

theorem transitionRow_of_step {s t : State} (hstep : step s = .next t) (hne : t.rxState ≠ s.rxState) :
    ∃ w rest i, s.inbox = w :: rest ∧ decode (.cmd w) = .ok i ∧ TransitionRow (s.withInbox rest) i t.rxState := by
  obtain ⟨w, rest, i, hin, hdecode, heffect⟩ :=
    effect_of_step_ne (f := State.rxState) (fun _ _ => rfl) (fun _ => rfl) hstep hne
  exact ⟨w, rest, i, hin, hdecode, heffect.transitionRow hne⟩

/-- Settles O13: each row of the table is a clause. -/
theorem receiverTransitionsAreTheTable : Obligations.ReceiverTransitionsAreTheTable := by
  intro s t hstep hne
  obtain ⟨w, rest, i, hin, hdecode, hrow⟩ := transitionRow_of_step hstep hne
  refine ⟨w, rest, i, hin, hdecode, ?_⟩
  generalize t.rxState = x at hrow
  cases hrow with
  | reset => exact .inl ⟨rfl, rfl⟩
  | configured h =>
    obtain ⟨a, r, rfl, hmin, hmax, hbaud⟩ := h
    exact .inr (.inl ⟨a, r, rfl, hmin, hmax, hbaud, rfl⟩)
  | poweredUp hcnt h => exact .inr (.inr (.inl ⟨rfl, hcnt, h, rfl⟩))
  | started b h => exact .inr (.inr (.inr (.inl ⟨b, rfl, h, rfl⟩)))
  | completed hcnt h => exact .inr (.inr (.inr (.inr (.inl ⟨rfl, hcnt, h, rfl⟩))))
  | released h => exact .inr (.inr (.inr (.inr (.inr ⟨rfl, h, rfl⟩))))

/-! ### CNT (41_timer.md R124 to R126) -/

/-- Every change of CNT: the command that makes it, and the new count. -/
inductive CountRow (s : State) : Instr → Nat → Prop
  | reset : CountRow s .rst 0
  | configured {i : Instr} {n : Nat} (h : IsLegalCfg i) (hpos : 1 ≤ n) : CountRow s i n
  | loaded (b : Byte) (h : s.rxState = .idle ∨ s.rxState = .receiving) : CountRow s (.rxb b) s.thr
  | counted (h : 2 ≤ s.cnt) : CountRow s .tck (s.cnt - 1)
  | expired (h : s.cnt = 1) : CountRow s .tck 0

theorem Effect.countRow {s t : State} {i : Instr} (heffect : Effect s i t) (hne : t.cnt ≠ s.cnt) :
    CountRow s i t.cnt := by
  cases heffect with
  | reset => exact .reset
  | configured h =>
    obtain ⟨-, -, hbaud, rfl⟩ := cfgThreshold_eq_some.mp h
    exact .configured (isLegalCfg_of_threshold h) (thrOfBaud_range hbaud).1
  | started b h => exact .loaded b (.inl h)
  | appended b h _ => exact .loaded b (.inr h)
  | counted h => exact .counted h
  | expired h => exact .expired h
  | answered _ _ _ => exact absurd (by rw [State.answer_eq]; rfl) hne
  | refused _ | dropped _ _ _ | inert _ | ignored _ | discarded _ _ => exact absurd rfl hne

theorem countRow_of_step {s t : State} (hstep : step s = .next t) (hne : t.cnt ≠ s.cnt) :
    ∃ w rest i, s.inbox = w :: rest ∧ decode (.cmd w) = .ok i ∧ CountRow (s.withInbox rest) i t.cnt := by
  obtain ⟨w, rest, i, hin, hdecode, heffect⟩ :=
    effect_of_step_ne (f := State.cnt) (fun _ _ => rfl) (fun _ => rfl) hstep hne
  exact ⟨w, rest, i, hin, hdecode, heffect.countRow hne⟩

/-! ### FRAME_READY and TIMER_ARMED (10_state.md R31, 60_exceptions.md R256) -/

theorem frameReady_starts {s t : State} (hstep : step s = .next t) (hs : s.frameReady = false)
    (ht : t.frameReady = true) :
    ∃ w rest, s.inbox = w :: rest ∧ decode (.cmd w) = .ok .tck ∧ s.rxState = .receiving ∧ s.cnt = 1 := by
  rw [State.frameReady_eq_false] at hs
  rw [State.frameReady_eq_true] at ht
  obtain ⟨w, rest, i, hin, hdecode, hrow⟩ := transitionRow_of_step hstep (ht ▸ hs.symm)
  rw [ht] at hrow
  cases hrow with
  | completed hcnt h => exact ⟨w, rest, hin, hdecode, h, hcnt⟩

theorem frameReady_ends {s t : State} (hstep : step s = .next t) (hs : s.frameReady = true)
    (ht : t.frameReady = false) :
    s.rxState = .complete ∧
      ∃ w rest i, s.inbox = w :: rest ∧ decode (.cmd w) = .ok i ∧ (i = .prc ∨ i = .rst ∨ IsLegalCfg i) := by
  rw [State.frameReady_eq_true] at hs
  rw [State.frameReady_eq_false] at ht
  obtain ⟨w, rest, i, hin, hdecode, hrow⟩ := transitionRow_of_step hstep (hs ▸ ht)
  refine ⟨hs, w, rest, i, hin, hdecode, ?_⟩
  generalize t.rxState = x at hrow
  cases hrow with
  | reset => exact .inr (.inl rfl)
  | configured h => exact .inr (.inr h)
  | released _ => exact .inl rfl
  | poweredUp _ h | started _ h | completed _ h => cases hs.symm.trans h

theorem timerArmed_starts {s t : State} (hstep : step s = .next t) (hs : s.timerArmed = false)
    (ht : t.timerArmed = true) :
    ∃ w rest i, s.inbox = w :: rest ∧ decode (.cmd w) = .ok i ∧
      (IsLegalCfg i ∨ ∃ b : Byte, i = .rxb b ∧ (s.rxState = .idle ∨ s.rxState = .receiving)) := by
  rw [State.timerArmed_eq_false] at hs
  rw [State.timerArmed_eq_true] at ht
  obtain ⟨w, rest, i, hin, hdecode, hrow⟩ := countRow_of_step hstep (hs ▸ ht)
  refine ⟨w, rest, i, hin, hdecode, ?_⟩
  have hs' : (s.withInbox rest).cnt = 0 := hs
  generalize t.cnt = n at hrow ht
  cases hrow with
  | configured h _ => exact .inl h
  | loaded b h => exact .inr ⟨b, rfl, h⟩
  | reset | counted _ | expired _ => omega

theorem timerArmed_ends {s t : State} (hstep : step s = .next t) (hs : s.timerArmed = true)
    (ht : t.timerArmed = false) :
    ∃ w rest i, s.inbox = w :: rest ∧ decode (.cmd w) = .ok i ∧
      ((i = .tck ∧ s.cnt = 1) ∨ i = .rst ∨ ∃ b : Byte, i = .rxb b ∧ s.thr = 0) := by
  rw [State.timerArmed_eq_true] at hs
  rw [State.timerArmed_eq_false] at ht
  obtain ⟨w, rest, i, hin, hdecode, hrow⟩ := countRow_of_step hstep (ht ▸ hs.symm)
  refine ⟨w, rest, i, hin, hdecode, ?_⟩
  generalize hn : t.cnt = n at hrow
  have hn : n = 0 := hn ▸ ht
  cases hrow with
  | reset => exact .inr (.inl rfl)
  | loaded b _ => exact .inr (.inr ⟨b, rfl, hn⟩)
  | expired h => exact .inl ⟨rfl, h⟩
  | configured _ _ | counted _ => omega

/-- An armed timer of a reachable state has a threshold to reload, so no byte ends it. -/
theorem SafeState.thr_ne_zero {s : State} (hs : SafeState s) (harmed : s.timerArmed = true) : s.thr ≠ 0 := by
  obtain ⟨-, hpos, hle⟩ := hs.invariants.armed (State.timerArmed_eq_true.mp harmed)
  omega

/-- Settles O14: the rows of STATE and of CNT that raise and end the two conditions. -/
theorem conditionsChangeOnlyByTheirCauses : Obligations.ConditionsChangeOnlyByTheirCauses := by
  intro s t hstep
  refine ⟨frameReady_starts hstep, frameReady_ends hstep, timerArmed_starts hstep, timerArmed_ends hstep,
    fun hsafe hs ht => ?_⟩
  obtain ⟨w, rest, i, hin, hdecode, ⟨rfl, hcnt⟩ | rfl | ⟨b, rfl, hthr⟩⟩ := timerArmed_ends hstep hs ht
  · exact ⟨w, rest, hin, .inl ⟨hdecode, hcnt⟩⟩
  · exact ⟨w, rest, hin, .inr hdecode⟩
  · exact absurd hthr (hsafe.thr_ne_zero hs)

/-! ### SENT (10_state.md R41, 45_response_builder.md R213, R214) -/

/-- Only an answer to a frame that is not a broadcast is sent, and it is the response just built. -/
theorem Effect.sent_ne {s t : State} {i : Instr} (heffect : Effect s i t) (hne : t.sent ≠ s.sent) :
    i = .prc ∧ s.rxState = .complete ∧ validate s = some (valPdu s) ∧ s.rxByte 0 ≠ 0#8 ∧
      t.sent = s.sent ++ [t.txFrame] ∧ ∃ a fc payload, t.txFrame = response a fc payload := by
  cases heffect with
  | @answered fc payload store hc hv _ =>
    have hsent : (s.answer Config.bcastTx (valPdu s).addr fc payload store).sent =
        if s.rxByte 0 ≠ 0#8 ∨ Config.bcastTx = true then
          s.sent ++ [(s.answer Config.bcastTx (valPdu s).addr fc payload store).txFrame] else s.sent := by
      conv_lhs => rw [State.answer_eq]
      rfl
    by_cases hunicast : s.rxByte 0 ≠ 0#8
    · rw [if_pos (.inl hunicast)] at hsent
      exact ⟨rfl, hc, hv, hunicast, hsent, _, _, _, State.answer_txFrame ..⟩
    · rw [if_neg (by simpa using hunicast)] at hsent
      exact absurd hsent hne
  | reset | refused _ | configured _ | started _ _ | appended _ _ _ | dropped _ _ _ | inert _ | counted _ | expired _
  | ignored _ | discarded _ _ => exact absurd rfl hne

/-- No payload gives a response outside the lengths of a frame, or with a residue. -/
theorem response_good (a fc : Byte) (payload : List Byte) :
    4 ≤ (response a fc payload).length ∧ (response a fc payload).length ≤ 256 ∧
      crcCheck (response a fc payload) = true := by
  refine ⟨?_, ?_, ?_⟩
  · rw [response_length]
    omega
  · rw [response_length]
    omega
  · rw [response, crcCheck_iff, crc16_crcAppend]

theorem SentGood.of_sent_eq {s t : State} (hs : SentGood s) (h : t.sent = s.sent) : SentGood t := by
  rw [SentGood, h]
  exact hs

theorem SentGood.effect {s t : State} {i : Instr} (heffect : Effect s i t) (hs : SentGood s) : SentGood t := by
  by_cases hsame : t.sent = s.sent
  · exact hs.of_sent_eq hsame
  · obtain ⟨-, -, -, -, hsent, a, fc, payload, htx⟩ := heffect.sent_ne hsame
    intro f hf
    rw [hsent, htx, List.mem_append, List.mem_singleton] at hf
    rcases hf with hf | rfl
    · exact hs f hf
    · exact response_good a fc payload

/-- Settles O11: what an effect adds to SENT is a response. -/
theorem everythingSentIsAGoodFrame : Obligations.EverythingSentIsAGoodFrame := fun _ _ hs hstep =>
  step_keeps (P := SentGood) (fun h => h.of_sent_eq rfl) (fun h => h.of_sent_eq rfl) SentGood.effect hstep hs

/-- Settles O17: SENT changes by an effect of PRC, on a frame the validator passed whose address is not 0. -/
theorem sentGrowsOnlyByTheResponseBuilt : Obligations.SentGrowsOnlyByTheResponseBuilt := by
  intro s t hstep
  by_cases hsame : t.sent = s.sent
  · exact .inl hsame
  · obtain ⟨w, rest, i, hin, hdecode, heffect⟩ :=
      effect_of_step_ne (f := State.sent) (fun _ _ => rfl) (fun _ => rfl) hstep hsame
    obtain ⟨rfl, hc, hv, hunicast, hsent, -⟩ := heffect.sent_ne hsame
    obtain ⟨hlen, hcrc, haddr⟩ := validate_eq_valPdu_iff.mp hv
    have hown : s.rxByte 0 = s.addr := haddr.resolve_right hunicast
    have hinit : s.rxState ≠ .init := fun h => by cases h.symm.trans hc
    refine .inr ⟨hsent, hc, hlen, hcrc, hown, hunicast, fun hsafe => ?_, w, rest, hin, hdecode⟩
    obtain ⟨hmin, hmax, -⟩ := hsafe.invariants.configured hinit
    exact hown ▸ ⟨hmin, hmax⟩

/-! ### The latches (assumption log 4) -/

/-- The state with other results in its latches and another report: what no command reads. -/
def State.relabel (s : State) (l : Latch) (c : CmdStatus) : State := { s with latch := l, status := c }

theorem State.answer_relabel (s : State) (l : Latch) (c : CmdStatus) (tx : Bool) (a fc : Byte) (payload : List Byte)
    (store : List Word) :
    (s.relabel l c).answer tx a fc payload store = (s.answer tx a fc payload store).relabel l c := by
  unfold State.answer State.transmit
  split <;> rfl

/-- No command reads a latch or the report, and none writes a latch. -/
theorem Effect.relabel {s t : State} {i : Instr} (heffect : Effect s i t) (l : Latch) (c : CmdStatus) :
    Effect (s.relabel l c) i (t.withLatch l) := by
  cases heffect with
  | reset => exact .reset
  | refused h => exact .refused h
  | configured h => exact .configured h
  | started b h => exact .started b h
  | appended b h hroom => exact .appended b h hroom
  | dropped b hidle hroom => exact .dropped b hidle hroom
  | inert h => exact .inert h
  | counted h => exact .counted h
  | expired h => exact .expired h
  | ignored h => exact .ignored h
  | discarded h hv => exact .discarded h hv
  | @answered fc payload store h hv hdsp =>
    have hanswered := Effect.answered (s := s.relabel l c) h hv hdsp
    rw [State.answer_relabel] at hanswered
    exact hanswered

theorem Effect.latch_eq {s t : State} {i : Instr} (heffect : Effect s i t) : t.latch = s.latch := by
  cases heffect with
  | answered _ _ _ => exact State.answer_latch ..
  | reset | refused _ | configured _ | started _ _ | appended _ _ _ | dropped _ _ _ | inert _ | counted _ | expired _
  | ignored _ | discarded _ _ => rfl

/-- Settles O12: by what the step does, from the state with other latches the same. -/
theorem commandsIgnoreTheLatches : Obligations.CommandsIgnoreTheLatches := by
  intro s t l hstep
  rcases step_eq_next_iff.mp hstep with ⟨hin, rfl⟩ | ⟨w, rest, e, hin, hdecode, rfl⟩ |
    ⟨w, rest, i, hin, hdecode, heffect⟩
  · exact ⟨rfl, step_of_inbox_nil hin⟩
  · exact ⟨rfl, step_of_decode_error (s := s.withLatch l) hin hdecode⟩
  · refine ⟨heffect.latch_eq, ?_⟩
    exact (step_of_decode_ok (s := s.withLatch l) hin hdecode).trans (heffect.relabel l s.status).exec_eq

end Sys2Proof.Machine
end

section
/-! SUPPORT. What the effects of the commands do to the cells of RXBUF and TXBUF, and which cells PRC reads. Then the
statements of 20_memory.md and of 45_response_builder.md section 4. -/

namespace Sys2Proof.Machine

/-! ### Who writes the cells (45_response_builder.md R217) -/

theorem State.answer_rxByte (s : State) (tx : Bool) (a fc : Byte) (payload : List Byte) (store : List Word) (j : Nat) :
    (s.answer tx a fc payload store).rxByte j = s.rxByte j := by
  rw [State.answer_eq]
  rfl

/-- A cell of RXBUF changes by RST, or by a byte that is stored there. -/
theorem Effect.rxByte_ne {s t : State} {c : Instr} {j : Nat} (heffect : Effect s c t) (hne : t.rxByte j ≠ s.rxByte j) :
    c = .rst ∨ (∃ b : Byte, c = .rxb b ∧ s.rxState = .idle ∧ j = 0 ∧ t.rxByte j = b) ∨
      (∃ b : Byte, c = .rxb b ∧ s.rxState = .receiving ∧ s.len < 256 ∧ j = s.len ∧ t.rxByte j = b) := by
  cases heffect with
  | reset => exact .inl rfl
  | started b h =>
    have hcell : (rxStart b s).accept.rxByte j = if 0 = j then b else s.rxByte j := rxStart_rxByte b s j
    by_cases hj : 0 = j
    · rw [if_pos hj] at hcell
      exact .inr (.inl ⟨b, rfl, h, hj.symm, hcell⟩)
    · rw [if_neg hj] at hcell
      exact absurd hcell hne
  | appended b h hroom =>
    have hcell : (rxAppend b s).accept.rxByte j = if s.len = j then b else s.rxByte j := rxAppend_rxByte b s j
    by_cases hj : s.len = j
    · rw [if_pos hj] at hcell
      exact .inr (.inr ⟨b, rfl, h, hroom, hj.symm, hcell⟩)
    · rw [if_neg hj] at hcell
      exact absurd hcell hne
  | answered _ _ _ => exact absurd (State.answer_rxByte ..) hne
  | refused _ | configured _ | dropped _ _ _ | inert _ | counted _ | expired _ | ignored _ | discarded _ _ =>
    exact absurd rfl hne

/-- TXLEN and the cells of TXBUF change by RST, or by an answer. -/
theorem Effect.tx_ne {s t : State} {c : Instr} (heffect : Effect s c t)
    (hne : (t.txlen, t.txByte) ≠ (s.txlen, s.txByte)) : c = .rst ∨ (c = .prc ∧ s.rxState = .complete) := by
  cases heffect with
  | reset => exact .inl rfl
  | discarded h _ => exact .inr ⟨rfl, h⟩
  | answered h _ _ => exact .inr ⟨rfl, h⟩
  | refused _ | configured _ | started _ _ | appended _ _ _ | dropped _ _ _ | inert _ | counted _ | expired _
  | ignored _ => exact absurd rfl hne

/-- Settles O15: by the effect of the step's command on RXBUF, and on TXLEN with TXBUF. -/
theorem buffersChangeOnlyByTheirOwner : Obligations.BuffersChangeOnlyByTheirOwner := by
  intro s t hstep
  refine ⟨fun j hne => ?_, fun hchanged => ?_⟩
  · obtain ⟨w, rest, c, hin, hdecode, heffect⟩ :=
      effect_of_step_ne (f := (State.rxByte · j)) (fun _ _ => rfl) (fun _ => rfl) hstep hne
    exact ⟨w, rest, c, hin, hdecode, heffect.rxByte_ne hne⟩
  · have hne : (t.txlen, t.txByte) ≠ (s.txlen, s.txByte) := by
      intro hsame
      obtain ⟨hlen, hcells⟩ := Prod.mk.inj hsame
      rcases hchanged with h | ⟨j, h⟩
      · exact h hlen
      · exact h (congrFun hcells j)
    obtain ⟨w, rest, c, hin, hdecode, heffect⟩ :=
      effect_of_step_ne (f := fun s => (s.txlen, s.txByte)) (fun _ _ => rfl) (fun _ => rfl) hstep hne
    exact ⟨w, rest, c, hin, hdecode, heffect.tx_ne hne⟩

/-! ### Operations that store nothing (20_memory.md R65) -/

/-- Every cell of both buffers and every word of the store reads the same. -/
def SameMemory (s t : State) : Prop :=
  (∀ j, t.rxByte j = s.rxByte j) ∧ (∀ j, t.txByte j = s.txByte j) ∧ t.store = s.store

theorem SameMemory.of_fields {s t : State} (hrx : t.rxbuf = s.rxbuf) (htx : t.txbuf = s.txbuf)
    (hresets : t.resets = s.resets) (hstore : t.store = s.store) : SameMemory s t :=
  ⟨fun j => by rw [State.rxByte, hrx, hresets]; rfl, fun j => by rw [State.txByte, htx, hresets]; rfl, hstore⟩

theorem SameMemory.of_exec {s t u : State} {i : Instr} (hexec : exec i s = .next t) (hu : exec i s = .next u)
    (hsame : SameMemory s u) : SameMemory s t := by
  rwa [Host.Outcome.next.inj (hexec.symm.trans hu)]

theorem SameMemory.of_cfg {s t : State} {a : Byte} {r : BitVec 32} (h : Effect s (.cfg a r) t) : SameMemory s t := by
  cases h <;> exact .of_fields rfl rfl rfl rfl

theorem SameMemory.of_tck {s t : State} (h : Effect s .tck t) : SameMemory s t := by
  cases h <;> exact .of_fields rfl rfl rfl rfl

theorem SameMemory.of_tmrCfg {s t : State} {r : BitVec 32} (h : exec (.tmrCfg r) s = .next t) : SameMemory s t := by
  rcases Nat.lt_or_ge r.toNat 12 with hrefused | hlegal
  · exact .of_exec h (exec_tmrCfg_of_refused s hrefused) (.of_fields rfl rfl rfl rfl)
  · exact .of_exec h (exec_tmrCfg_of_legal s hlegal) (.of_fields rfl rfl rfl rfl)

theorem SameMemory.transmit (tx : Bool) (s : State) (a : Byte) : SameMemory s (State.transmit tx s a) :=
  .of_fields (State.transmit_rxbuf ..) (State.transmit_txbuf ..) (State.transmit_resets ..) (State.transmit_store ..)

/-- Settles O58: none of the ten has a buffer or the store among the fields it writes. -/
theorem nonStoringOperationsLeaveMemory : Obligations.NonStoringOperationsLeaveMemory := by
  intro s t i hi hexec
  rcases hi with ⟨a, r, rfl⟩ | rfl | ⟨r, rfl⟩ | rfl | rfl | rfl | ⟨b, rfl⟩ | rfl | rfl | ⟨a, rfl⟩
  · exact SameMemory.of_cfg ((exec_eq_next_iff rfl).mp hexec)
  · exact SameMemory.of_tck ((exec_eq_next_iff rfl).mp hexec)
  · exact SameMemory.of_tmrCfg hexec
  · exact SameMemory.of_exec hexec (exec_tmrLoad s) (.of_fields rfl rfl rfl rfl)
  · exact SameMemory.of_exec hexec (exec_tmrDec s) (.of_fields rfl rfl rfl rfl)
  · exact SameMemory.of_exec hexec (exec_rxExpire s) (.of_fields rfl rfl rfl rfl)
  · exact SameMemory.of_exec hexec (exec_rxDrop b s) (.of_fields rfl rfl rfl rfl)
  · exact SameMemory.of_exec hexec (exec_discard s) (.of_fields rfl rfl rfl rfl)
  · exact SameMemory.of_exec hexec (exec_rel s) (.of_fields rfl rfl rfl rfl)
  · exact SameMemory.of_exec hexec (exec_snd a s) (.transmit _ s a)

/-! ### The cells PRC reads (10_state.md R23) -/

/-- The state with other contents of RXBUF. -/
def State.withRxbuf (s : State) (m : Memory) : State := { s with rxbuf := m }

theorem State.answer_withRxbuf (s : State) (m : Memory) (tx : Bool) (a fc : Byte) (payload : List Byte)
    (store : List Word) :
    (s.withRxbuf m).answer tx a fc payload store = (s.answer tx a fc payload store).withRxbuf m := by
  unfold State.answer State.transmit
  split <;> rfl

section
variable {s : State} {m : Memory} (hagree : ∀ i, i < s.len → Memory.read? m i = Memory.read? s.rxbuf i)
include hagree

theorem State.withRxbuf_rxByte {i : Nat} (hi : i < s.len) : (s.withRxbuf m).rxByte i = s.rxByte i := by
  have hcell : Memory.read? (s.withRxbuf m).rxbuf i = Memory.read? s.rxbuf i := hagree i hi
  rw [State.rxByte, cellValue, hcell]
  rfl

theorem State.withRxbuf_rxSlice {a b : Nat} (hb : b ≤ s.len) : (s.withRxbuf m).rxSlice a b = s.rxSlice a b := by
  refine List.map_congr_left fun i hi => State.withRxbuf_rxByte hagree ?_
  obtain ⟨hge, hlt⟩ := List.mem_range'_1.mp hi
  omega

theorem State.withRxbuf_rxFrame : (s.withRxbuf m).rxFrame = s.rxFrame := State.withRxbuf_rxSlice hagree le_rfl

theorem valPdu_withRxbuf (hlen : 4 ≤ s.len) : valPdu (s.withRxbuf m) = valPdu s := by
  have hdata : (s.withRxbuf m).rxSlice 2 (s.len - 2) = s.rxSlice 2 (s.len - 2) :=
    State.withRxbuf_rxSlice hagree (Nat.sub_le ..)
  rw [valPdu, valPdu, State.withRxbuf_rxByte hagree (by omega), State.withRxbuf_rxByte hagree (by omega), ← hdata]
  rfl

/-- A frame too short is discarded before a cell is read. -/
theorem validate_withRxbuf : validate (s.withRxbuf m) = validate s := by
  rcases Nat.lt_or_ge s.len 4 with hshort | hlen
  · rw [validate_eq_none.mpr (.inl hshort)]
    exact validate_eq_none.mpr (.inl hshort)
  · rw [validate, validate, State.withRxbuf_rxFrame hagree, State.withRxbuf_rxByte hagree (by omega),
      valPdu_withRxbuf hagree hlen]
    rfl

theorem Effect.prc_withRxbuf {t : State} (heffect : Effect s .prc t) :
    Effect (s.withRxbuf m) .prc (t.withRxbuf m) := by
  have hvalidate := validate_withRxbuf hagree
  cases heffect with
  | ignored h => exact .ignored h
  | discarded h hv => exact .discarded h (hvalidate.trans hv)
  | @answered fc payload store h hv hdsp =>
    obtain ⟨hlen, -, -⟩ := validate_eq_valPdu_iff.mp hv
    have hpdu := valPdu_withRxbuf hagree hlen
    have hanswered := Effect.answered (s := s.withRxbuf m) (fc := fc) (payload := payload) (store := store) h
      (by rw [hpdu, hvalidate, hv]) (by rw [hpdu]; exact hdsp)
    rw [hpdu, State.answer_withRxbuf] at hanswered
    exact hanswered

end

/-- Settles O56: the effect of PRC is the same from both contents. -/
theorem staleCellsAreNeverRead : Obligations.StaleCellsAreNeverRead := by
  intro s t m hagree hexec
  exact (((exec_eq_next_iff rfl).mp hexec).prc_withRxbuf hagree).exec_eq

/-- Settles O19: after RST a buffer lists no cell, so each reads as an unspecified byte. -/
theorem resetCommandResult : Obligations.ResetCommandResult := fun s =>
  ⟨(resetCore s).accept, rfl, rfl, fun _ => rfl, fun _ => rfl, rfl, rfl⟩

end Sys2Proof.Machine
end

section
/-! SUPPORT. Runs of ticks, bytes and PRC: what is left after so many ticks, what INIT makes of all of them, and a frame
received byte by byte. Then the statements about runs. -/

namespace Sys2Proof.Machine

theorem execAll_cons {i : Instr} {is : List Instr} {s t : State} (h : exec i s = .next t) :
    execAll (i :: is) s = execAll is t := by
  simp only [execAll, h]

theorem execAll_answers {is : List Instr} (h : ∀ i ∈ is, i.format = .cmd) (s : State) :
    ∃ t, execAll is s = .next t := by
  induction is generalizing s with
  | nil => exact ⟨s, rfl⟩
  | cons i is ih =>
    obtain ⟨u, heffect⟩ := exists_effect s (h i (List.mem_cons_self ..))
    rw [execAll_cons heffect.exec_eq]
    exact ih (fun j hj => h j (List.mem_cons_of_mem _ hj)) u

/-! ### Ticks one after another (41_timer.md R127, R128) -/

/-- The state `n` ticks later: one expiry when the count runs out among them. -/
def State.elapse (s : State) (n : Nat) : State :=
  { s with
    cnt := s.cnt - n
    rxState := if 1 ≤ s.cnt ∧ s.cnt ≤ n then s.rxState.onExpiry else s.rxState
    status := .accepted }

theorem State.elapse_of_lt {s : State} {n : Nat} (h : n < s.cnt) :
    s.elapse n = { s with cnt := s.cnt - n, status := .accepted } := by
  rw [State.elapse, if_neg (by omega)]

theorem State.elapse_of_le {s : State} {n : Nat} (hpos : 1 ≤ s.cnt) (h : s.cnt ≤ n) :
    s.elapse n = { s with cnt := 0, rxState := s.rxState.onExpiry, status := .accepted } := by
  rw [State.elapse, if_pos ⟨hpos, h⟩, Nat.sub_eq_zero_of_le h]

theorem State.elapse_of_inert {s : State} (n : Nat) (h : s.cnt = 0) : s.elapse n = s.accept := by
  rw [State.elapse, if_neg (by omega), h, Nat.zero_sub, ← h]
  rfl

theorem State.elapse_zero (s : State) : s.elapse 0 = s.accept := by
  rw [State.elapse, if_neg (by omega)]
  rfl

theorem State.elapse_elapse (s : State) (m n : Nat) : (s.elapse m).elapse n = s.elapse (m + n) := by
  by_cases hinert : s.cnt = 0
  · rw [s.elapse_of_inert m hinert, s.elapse_of_inert (m + n) hinert]
    exact State.elapse_of_inert (s := s.accept) n hinert
  · rcases Nat.lt_or_ge m s.cnt with hlt | hle
    · rw [State.elapse_of_lt hlt]
      have hiff : (1 ≤ s.cnt - m ∧ s.cnt - m ≤ n) ↔ (1 ≤ s.cnt ∧ s.cnt ≤ m + n) := by omega
      simp only [State.elapse, hiff, Nat.sub_sub]
    · rw [State.elapse_of_le (by omega) hle, State.elapse_of_le (n := m + n) (by omega) (by omega)]
      exact State.elapse_of_inert n rfl

theorem exec_tck_eq_elapse (s : State) : exec .tck s = .next (s.elapse 1) := by
  rw [exec_tck]
  rcases tick_cases s with ⟨h, htick⟩ | ⟨h, htick⟩ | ⟨h, htick⟩ <;> rw [htick]
  · rw [State.elapse_of_inert 1 h]
    rfl
  · rw [State.elapse_of_le (by omega) (by omega)]
  · rw [State.elapse_of_lt (by omega)]

theorem execAll_ticks (n : Nat) (s : State) : execAll (ticks n) s.accept = .next (s.elapse n) := by
  induction n generalizing s with
  | zero => rw [State.elapse_zero]; rfl
  | succ n ih =>
    have htick : exec .tck s.accept = .next (s.elapse 1).accept := exec_tck_eq_elapse s.accept
    calc execAll (ticks (n + 1)) s.accept = execAll (ticks n) (s.elapse 1).accept := execAll_cons htick
      _ = .next (s.elapse (n + 1)) := by rw [ih, State.elapse_elapse, Nat.add_comm]

/-- The first tick leaves its own report, whatever the one before. -/
theorem execAll_ticks_of_pos {n : Nat} (hn : 1 ≤ n) (s : State) : execAll (ticks n) s = .next (s.elapse n) := by
  obtain ⟨n, rfl⟩ := Nat.exists_eq_add_of_le' hn
  rw [← execAll_ticks]
  exact (execAll_cons (exec_tck_eq_elapse s)).trans (execAll_cons (exec_tck_eq_elapse s.accept)).symm

/-- Settles O26: the ticks count down from THR. -/
theorem expiryExactlyOnceAfterThresholdTicks : Obligations.ExpiryExactlyOnceAfterThresholdTicks := by
  intro s n hthr hn
  have hrun : execAll (.tmrLoad :: ticks n) s = .next (s.loadTimer.elapse n) :=
    (execAll_cons (exec_tmrLoad s)).trans (execAll_ticks_of_pos hn _)
  refine ⟨fun hlt => ?_, fun hle => ?_⟩
  · rw [hrun, State.elapse_of_lt hlt]
    rfl
  · rw [hrun, State.elapse_of_le hthr hle, RxState.onExpiry_eq]
    rfl

/-! ### INIT (70_reset_and_hazards.md R283) -/

/-- In INIT bytes and PRC do nothing, and ticks before the last only count. -/
theorem execAll_of_init {is : List Instr} (his : ∀ i ∈ is, i = .tck ∨ i = .prc ∨ ∃ b, i = .rxb b) {s : State}
    (hinit : s.rxState = .init) (hcnt : s.cnt = 0 ∨ is.count .tck < s.cnt) :
    execAll is s.accept = .next (s.elapse (is.count .tck)) := by
  induction is generalizing s with
  | nil => rw [List.count_nil, State.elapse_zero]; rfl
  | cons i is ih =>
    have his' : ∀ j ∈ is, j = .tck ∨ j = .prc ∨ ∃ b, j = .rxb b := fun j hj => his j (List.mem_cons_of_mem _ hj)
    rcases his i (List.mem_cons_self ..) with rfl | rfl | ⟨b, rfl⟩
    · rw [List.count_cons_self] at hcnt ⊢
      have htick : exec .tck s.accept = .next (s.elapse 1).accept := exec_tck_eq_elapse s.accept
      have hinit' : (s.elapse 1).rxState = .init := by
        rw [State.elapse, if_neg (by omega)]
        exact hinit
      have hcnt' : s.cnt - 1 = 0 ∨ is.count .tck < s.cnt - 1 := by omega
      rw [execAll_cons htick, ih his' hinit' hcnt', State.elapse_elapse, Nat.add_comm]
    · rw [List.count_cons_of_ne (by simp)] at hcnt ⊢
      have hprc : exec .prc s.accept = .next s.accept := (Effect.ignored (s := s.accept) (by simp [hinit])).exec_eq
      rw [execAll_cons hprc, ih his' hinit hcnt]
    · rw [List.count_cons_of_ne (by simp)] at hcnt ⊢
      have hrxb : exec (.rxb b) s.accept = .next s.accept :=
        (Effect.dropped (s := s.accept) b (by simp [hinit]) (by simp [hinit])).exec_eq
      rw [execAll_cons hrxb, ih his' hinit hcnt]

/-- A last tick that is the one the count waits for takes the receiver to IDLE. -/
theorem execAll_of_init_last {is : List Instr} (his : ∀ i ∈ is, i = .tck ∨ i = .prc ∨ ∃ b, i = .rxb b) {s : State}
    (hinit : s.rxState = .init) (hcnt : is.count .tck = s.cnt) (hlast : is.getLast? = some .tck) :
    execAll is s.accept = .next (s.elapse s.cnt) := by
  obtain ⟨js, rfl⟩ := List.getLast?_eq_some_iff.mp hlast
  rw [List.count_append, List.count_singleton_self] at hcnt
  have hjs := execAll_of_init (fun j hj => his j (List.mem_append_left _ hj)) hinit (.inr (by omega))
  rw [execAll_append hjs, execAll_cons (exec_tck_eq_elapse _), State.elapse_elapse, hcnt]
  rfl

/-- Settles O20: RST leaves INIT with the timer inert. -/
theorem unconfiguredBlockStaysInInit : Obligations.UnconfiguredBlockStaysInInit := by
  intro s is his
  have hrst : exec .rst s = .next (resetCore s).accept := rfl
  have hrun := execAll_of_init his (s := resetCore s) rfl (.inl rfl)
  rw [State.elapse_of_inert _ rfl] at hrun
  exact ⟨_, hrst, (execAll_cons hrst).trans hrun⟩

/-- Settles O22: CFG leaves INIT with the count at THR. -/
theorem bringUpTakesThresholdTicks : Obligations.BringUpTakesThresholdTicks := by
  intro s a baud is hmin hmax hbaud his
  have hrst : exec .rst s = .next (resetCore s).accept := rfl
  have hcfg := exec_cfg_of_some (resetCore s).accept (cfgThreshold_of_legal hmin hmax hbaud)
  have hboot := (execAll_cons (is := [.cfg a baud]) hrst).trans (execAll_cons (is := []) hcfg)
  have hpos := (thrOfBaud_range hbaud).1
  generalize hc : configure a (thrOfBaud baud.toNat) (resetCore s).accept = c at hboot
  have hinit : c.rxState = .init := hc ▸ rfl
  have hcnt : c.cnt = c.thr := hc ▸ rfl
  have hthr : 1 ≤ c.thr := hc ▸ hpos
  have hformat : ∀ i ∈ is, i.format = .cmd := by
    intro i hi
    rcases his i hi with rfl | rfl | ⟨b, rfl⟩ <;> rfl
  obtain ⟨u, hu⟩ := execAll_answers hformat c.accept
  refine ⟨c.accept, u, hboot, (execAll_append hboot).trans hu, fun hfewer => ?_, fun hall hlast => ?_⟩
  · have hfewer' : is.count .tck < c.cnt := hcnt ▸ hfewer
    have hrun := execAll_of_init his hinit (.inr hfewer')
    rw [Host.Outcome.next.inj (hu.symm.trans hrun), State.elapse_of_lt hfewer', hcnt]
    rfl
  · have hrun := execAll_of_init_last his hinit (hall.trans hcnt.symm) hlast
    rw [Host.Outcome.next.inj (hu.symm.trans hrun), State.elapse_of_le (hcnt ▸ hthr) le_rfl, hinit]
    rfl

/-! ### Bytes and the ticks after each (42_receiver.md R149) -/

/-- Bytes, each with the number of ticks that follow it. -/
def traffic (l : List (Byte × Nat)) : List Instr := l.flatMap fun p => .rxb p.1 :: ticks p.2

theorem execAll_traffic_cons (p : Byte × Nat) (l : List (Byte × Nat)) (s : State) :
    execAll (traffic (p :: l)) s = execAll (traffic l) ((receive p.1 s).elapse p.2) := by
  have hitem : execAll (.rxb p.1 :: ticks p.2) s = .next ((receive p.1 s).elapse p.2) :=
    (execAll_cons (exec_rxb p.1 s)).trans (execAll_ticks p.2 _)
  rw [traffic, List.flatMap_cons, execAll_append hitem, traffic]

theorem traffic_of_bytes (bs : List Byte) : traffic (bs.map fun b => (b, 0)) = bytesReceived bs := by
  rw [traffic, List.flatMap_map, bytesReceived, List.map_eq_flatMap]
  rfl

/-- `s` with `n` bytes of a frame received, RXBUF at `m` and the count at `c`. -/
def State.underway (s : State) (m : Memory) (n c : Nat) : State :=
  { s with rxbuf := m, len := n, cnt := c, rxState := .receiving, status := .accepted }

theorem rxAppend_rxFrame (b : Byte) (s : State) : (rxAppend b s).rxFrame = s.rxFrame ++ [b] := by
  have hbelow : (List.range' 0 s.len).map (rxAppend b s).rxByte = s.rxFrame := by
    refine List.map_congr_left fun i hi => ?_
    obtain ⟨-, hlt⟩ := List.mem_range'_1.mp hi
    rw [rxAppend_rxByte, if_neg (by omega)]
  have hlast : (rxAppend b s).rxByte s.len = b := by rw [rxAppend_rxByte, if_pos rfl]
  calc (rxAppend b s).rxFrame = (List.range' 0 (s.len + 1)).map (rxAppend b s).rxByte := rfl
    _ = s.rxFrame ++ [b] := by
      rw [List.range'_1_concat, List.map_append, hbelow, Nat.zero_add, List.map_singleton, hlast]

theorem receive_underway (b : Byte) (s : State) (m : Memory) {n c g : Nat} (hroom : n < 256) (hg : g < s.thr) :
    (receive b (s.underway m n c)).elapse g = s.underway (Memory.write m n b) (n + 1) (s.thr - g) := by
  rw [receive_of_room b rfl hroom, State.elapse_of_lt hg]
  rfl

/-- While there is room, every byte that comes before the silence is kept. -/
theorem execAll_traffic {s : State} {l : List (Byte × Nat)} {m : Memory} {n c g : Nat} (hroom : n + l.length ≤ 256)
    (hgap : ∀ p ∈ l, p.2 ≤ g) (hg : g < s.thr) (hc : s.thr - g ≤ c ∧ c ≤ s.thr) :
    ∃ m' c', execAll (traffic l) (s.underway m n c) = .next (s.underway m' (n + l.length) c') ∧
      (s.underway m' (n + l.length) c').rxFrame = (s.underway m n c).rxFrame ++ l.map Prod.fst ∧
      s.thr - g ≤ c' ∧ c' ≤ s.thr := by
  induction l generalizing m n c with
  | nil => exact ⟨m, c, rfl, by simp, hc⟩
  | cons p l ih =>
    have hp : p.2 ≤ g := hgap p (List.mem_cons_self ..)
    rw [List.length_cons] at hroom
    have hn : n + 1 + l.length = n + (p :: l).length := by rw [List.length_cons]; omega
    obtain ⟨m', c', hrun, hframe, hc'⟩ := ih (m := Memory.write m n p.1) (n := n + 1) (c := s.thr - p.2) (by omega)
      (fun q hq => hgap q (List.mem_cons_of_mem _ hq)) (by omega)
    rw [hn] at hrun hframe
    refine ⟨m', c', ?_, ?_, hc'⟩
    · rw [execAll_traffic_cons, receive_underway p.1 s m (by omega) (by omega), hrun]
    · have hbyte : (s.underway (Memory.write m n p.1) (n + 1) (s.thr - p.2)).rxFrame =
          (s.underway m n c).rxFrame ++ [p.1] := rxAppend_rxFrame p.1 (s.underway m n c)
      rw [hframe, hbyte, List.map_cons, List.append_assoc, List.singleton_append]

/-- The first byte in IDLE is the first of an empty frame underway. -/
theorem execAll_traffic_of_idle {s : State} {l : List (Byte × Nat)} (hidle : s.rxState = .idle) (hl : l ≠ []) :
    execAll (traffic l) s = execAll (traffic l) (s.underway s.rxbuf 0 s.thr) := by
  cases l with
  | nil => exact absurd rfl hl
  | cons p l =>
    have hfirst : (rxStart p.1 s).elapse p.2 = (rxAppend p.1 (s.underway s.rxbuf 0 s.thr)).elapse p.2 := rfl
    rw [execAll_traffic_cons, execAll_traffic_cons, receive_of_idle p.1 hidle, hfirst,
      receive_of_room p.1 rfl (show 0 < 256 by decide)]

/-- Settles O31: the bytes are all kept, with the timer still armed, and THR ticks more expire it. -/
theorem frameReceivedWholeBySilence : Obligations.FrameReceivedWholeBySilence := by
  intro s l hidle hthr hl hfits hgap
  obtain ⟨m, c, hrun, hframe, hmin, hmax⟩ := execAll_traffic (s := s) (l := l) (m := s.rxbuf) (n := 0) (c := s.thr)
    (g := s.thr - 1) (by omega) (fun p hp => by have := hgap p hp; omega) (by omega) (by omega)
  rw [← execAll_traffic_of_idle hidle hl] at hrun
  rw [Nat.zero_add] at hrun hframe
  have hsilence := execAll_ticks_of_pos hthr (s.underway m l.length c)
  rw [State.elapse_of_le (show 1 ≤ c by omega) hmax] at hsilence
  exact ⟨_, (execAll_append hrun).trans hsilence, rfl, hframe⟩

/-- A byte that is dropped leaves only the ticks after it. -/
theorem execAll_traffic_of_dropped {s : State} (hdrop : ∀ b n, receive b (s.elapse n) = s.elapse n)
    (l : List (Byte × Nat)) (n : Nat) :
    execAll (traffic l) (s.elapse n) = .next (s.elapse (n + (l.map fun p => p.2).sum)) := by
  induction l generalizing n with
  | nil => rfl
  | cons p l ih =>
    rw [execAll_traffic_cons, hdrop, State.elapse_elapse, ih, List.map_cons, List.sum_cons, Nat.add_assoc]

/-- A full buffer takes no byte, before the silence or after it. -/
theorem receive_elapse_of_full (s : State) (m : Memory) (c : Nat) (b : Byte) (n : Nat) :
    receive b ((s.underway m 256 c).elapse n) = (s.underway m 256 c).elapse n := by
  refine receive_of_dropped b ?_ fun h => Nat.lt_irrefl 256 h.2
  have hstate : ((s.underway m 256 c).elapse n).rxState = if 1 ≤ c ∧ c ≤ n then .complete else .receiving := rfl
  rw [hstate]
  split_ifs <;> decide

/-- Settles O32: 256 bytes fill the buffer with the count at THR, and what follows is dropped but for its ticks. -/
theorem overlongFrameKeepsFirst256 : Obligations.OverlongFrameKeepsFirst256 := by
  intro s bs extra hidle hthr hlen
  have hl : (bs.map fun b => (b, 0)) ≠ [] := by
    rintro h
    rw [List.map_eq_nil_iff.mp h] at hlen
    cases hlen
  have hlen' : (bs.map fun b => (b, 0)).length = 256 := by rw [List.length_map, hlen]
  have hbytes : (bs.map fun b => (b, 0)).map Prod.fst = bs := by
    rw [List.map_map]
    exact List.map_id bs
  obtain ⟨m, c, hrun, hframe, hmin, hmax⟩ := execAll_traffic (s := s) (l := bs.map fun b => (b, 0)) (m := s.rxbuf)
    (n := 0) (c := s.thr) (g := 0) (by omega) (by simp) hthr (by omega)
  obtain rfl : c = s.thr := by omega
  rw [← execAll_traffic_of_idle hidle hl, traffic_of_bytes] at hrun
  rw [hlen'] at hrun hframe
  have hrest := execAll_traffic_of_dropped (receive_elapse_of_full s m s.thr) extra 0
  rw [State.elapse_zero, Nat.zero_add] at hrest
  refine ⟨_, (execAll_append hrun).trans hrest, ?_, fun hfewer => ?_, fun hsilence => ?_⟩
  · exact hframe.trans hbytes
  · rw [State.elapse_of_lt hfewer]
    rfl
  · rw [State.elapse_of_le hthr hsilence]
    rfl

/-! ### Two events together (60_exceptions.md R258, R259) -/

theorem Effect.of_accept {s t : State} {i : Instr} (heffect : Effect s i t) : Effect s.accept i t := by
  have h := heffect.relabel s.latch .accepted
  have hlatch : t.withLatch s.latch = t := by
    rw [← heffect.latch_eq]
    rfl
  rw [hlatch] at h
  exact h

/-- PRC in COMPLETE ends in IDLE, whatever the frame. -/
theorem Effect.prc_of_complete {s t : State} (heffect : Effect s .prc t) (hc : s.rxState = .complete) :
    t.rxState = .idle ∧ t.thr = s.thr ∧ t.status = .accepted := by
  cases heffect with
  | ignored h => exact absurd hc h
  | discarded _ _ => exact ⟨rfl, rfl, rfl⟩
  | answered _ _ _ => exact ⟨rfl, State.transmit_thr .., rfl⟩

theorem byte_with_tick {s : State} (b : Byte) (hreceiving : s.rxState = .receiving) (hroom : s.len < 256)
    (hthr : 2 ≤ s.thr) :
    ∃ t, execAll [.rxb b, .tck] s = .next t ∧
      t = { s with rxbuf := t.rxbuf, len := s.len + 1, cnt := s.thr - 1, status := .accepted } ∧
      t.rxByte s.len = b ∧ (∀ j, j ≠ s.len → t.rxByte j = s.rxByte j) := by
  have hrun : execAll [.rxb b, .tck] s = .next ((receive b s).elapse 1) := execAll_traffic_cons (b, 1) [] s
  rw [receive_of_room b hreceiving hroom] at hrun
  refine ⟨_, hrun, ?_, ?_, fun j hj => ?_⟩
  · rw [State.elapse_of_lt (show 1 < (rxAppend b s).cnt from hthr)]
    rfl
  · exact (rxAppend_rxByte b s s.len).trans (if_pos rfl)
  · exact (rxAppend_rxByte b s j).trans (if_neg hj.symm)

theorem tick_with_byte {s : State} (b : Byte) (hreceiving : s.rxState = .receiving) (hcnt : s.cnt = 1) :
    execAll [.tck, .rxb b] s = .next { s with rxState := .complete, cnt := 0, status := .accepted } := by
  have htick := exec_tck_eq_elapse s
  rw [State.elapse_of_le (by omega) (by omega), hreceiving] at htick
  rw [execAll_cons htick]
  exact execAll_cons (Effect.dropped b (by simp [RxState.onExpiry]) (by simp [RxState.onExpiry])).exec_eq

theorem byte_with_prc {s : State} (b : Byte) (hc : s.rxState = .complete) :
    ∃ t u, exec .prc s = .next t ∧ execAll [.rxb b, .prc] s = .next t ∧ execAll [.prc, .rxb b] s = .next u ∧
      u = { t with rxbuf := u.rxbuf, len := 1, cnt := s.thr, rxState := .receiving } ∧
      u.rxByte 0 = b ∧ (∀ j, j ≠ 0 → u.rxByte j = t.rxByte j) := by
  obtain ⟨t, heffect⟩ := exists_effect_prc s
  obtain ⟨hidle, hthr, hstatus⟩ := heffect.prc_of_complete hc
  have hdrop : exec (.rxb b) s = .next s.accept := (Effect.dropped b (by simp [hc]) (by simp [hc])).exec_eq
  refine ⟨t, (rxStart b t).accept, heffect.exec_eq, ?_, ?_, ?_, ?_, fun j hj => ?_⟩
  · exact (execAll_cons hdrop).trans (execAll_cons heffect.of_accept.exec_eq)
  · exact (execAll_cons heffect.exec_eq).trans (execAll_cons (Effect.started b hidle).exec_eq)
  · rw [← hthr, State.accept, ← hstatus]
    rfl
  · exact (rxStart_rxByte b t 0).trans (if_pos rfl)
  · exact (rxStart_rxByte b t j).trans (if_neg hj.symm)

/-- Settles O33: each order of each pair is one of the three runs. -/
theorem simultaneousEventsInEitherOrder : Obligations.SimultaneousEventsInEitherOrder :=
  ⟨fun _ b hreceiving hcnt hroom hthr => ⟨byte_with_tick b hreceiving hroom hthr, tick_with_byte b hreceiving hcnt⟩,
    fun _ b hc => byte_with_prc b hc⟩

end Sys2Proof.Machine
end

section
/-! SUPPORT. The linearity of the CRC register, which codes the handlers raise, and PRC with any dispatcher. Then the
statements about operations executed alone, and those of 40_crc16.md sections 2 and 3 and of
44_dispatcher_and_store.md R181. -/

namespace Sys2Proof.Machine

/-! ### The receiver and the timer outside their preconditions (assumption log 6) -/

theorem exec_rxAppend_of_full (b : Byte) {s : State} (h : 256 ≤ s.len) :
    exec (.rxAppend b) s = .fault (.noSuchCell .rxbuf s.len) :=
  if_neg (Nat.not_lt.mpr h)

/-- Settles O30: none of the operations looks at STATE, and RX.APPEND stops where there is no cell. -/
theorem microOperationsOutsideTheirPreconditions : Obligations.MicroOperationsOutsideTheirPreconditions := by
  intro s b
  refine ⟨⟨rxStart b s, exec_rxStart b s, rfl, ?_, fun j hj => ?_⟩,
    fun hroom => ⟨rxAppend b s, exec_rxAppend b hroom, rfl, ?_, fun j hj => ?_⟩, exec_rxAppend_of_full b,
    exec_rxDrop b s, fun hinert => ?_⟩
  · rw [rxStart_rxByte, if_pos rfl]
  · rw [rxStart_rxByte, if_neg hj.symm]
  · rw [rxAppend_rxByte, if_pos rfl]
  · rw [rxAppend_rxByte, if_neg hj.symm]
  · have hexpiry : expiryOf s.cnt = false := decide_eq_false (by omega)
    rw [exec_tmrDec, State.decrement, hexpiry, hinert, Nat.zero_sub, ← hinert]

/-! ### The CRC register (40_crc16.md R100, R104, R108) -/

theorem exec_crcInit (s : State) : exec .crcInit s = .next { s with latch := { s.latch with crc := 0xFFFF#16 } } := rfl

theorem exec_crcBit (c : Word) (s : State) :
    exec (.crcBit c) s = .next { s with latch := { s.latch with crc := crcBit c } } := rfl

/-- The bit the shift tests is the number's parity. -/
theorem crcBit_eq_parity (c : Word) : crcBit c = if c.toNat % 2 = 1 then (c >>> 1) ^^^ 0xA001#16 else c >>> 1 := by
  have hparity : c.getLsbD 0 = true ↔ c.toNat % 2 = 1 := by
    rw [BitVec.getLsbD, Nat.testBit_zero, decide_eq_true_iff]
  rw [crcBit, if_congr hparity rfl rfl]

/-- Settles O35: CRC.BYTE is by definition the eight shifts. -/
theorem crcInitBitByteResults : Obligations.CrcInitBitByteResults := by
  refine ⟨exec_crcInit, fun s c => ?_, fun s c b => ?_⟩
  · rw [exec_crcBit, crcBit_eq_parity]
  · exact ⟨_, _, _, _, _, _, _, _, exec_crcBit .., exec_crcBit .., exec_crcBit .., exec_crcBit .., exec_crcBit ..,
      exec_crcBit .., exec_crcBit .., exec_crcBit .., exec_crcByte ..⟩

/-- A shift with the polynomial or nothing added, as bit 0 says. -/
theorem crcBit_eq_xor (c : Word) : crcBit c = (c >>> 1) ^^^ (if c.getLsbD 0 then 0xA001#16 else 0#16) := by
  rw [crcBit]
  split
  · rfl
  · rw [BitVec.xor_zero]

theorem crcBit_xor (x y : Word) : crcBit (x ^^^ y) = crcBit x ^^^ crcBit y := by
  have hpoly : ∀ p q : Bool, (if (p ^^ q) = true then 0xA001#16 else 0#16) =
      (if p = true then 0xA001#16 else 0#16) ^^^ (if q = true then 0xA001#16 else 0#16) := by decide
  rw [crcBit_eq_xor, crcBit_eq_xor x, crcBit_eq_xor y, BitVec.getLsbD_xor, BitVec.ushiftRight_xor_distrib, hpoly]
  ac_rfl

theorem crcByte_congr {c c' : Word} {b b' : Byte} (h : c ^^^ b.zeroExtend 16 = c' ^^^ b'.zeroExtend 16) :
    crcByte c b = crcByte c' b' := by
  rw [crcByte, h, crcByte]

/-- Each of the eight shifts is linear. -/
theorem crcByte_xor (x y : Word) (b : Byte) : crcByte (x ^^^ y) b = crcByte x b ^^^ crcByte y 0x00#8 := by
  have hin : x ^^^ y ^^^ b.zeroExtend 16 = (x ^^^ b.zeroExtend 16) ^^^ (y ^^^ (0x00#8).zeroExtend 16) := by
    rw [show (0x00#8).zeroExtend 16 = 0#16 from rfl, BitVec.xor_zero]
    ac_rfl
  simp only [crcByte, hin, crcBit_xor]

/-- The two halves of a register, one above zero and one below. -/
theorem eq_xor_halves (w : Word) : w = be16 (hi8 w) 0x00#8 ^^^ (lo8 w).zeroExtend 16 := by
  apply BitVec.eq_of_getLsbD_eq
  intro i hi
  rw [BitVec.getLsbD_xor, be16_getLsbD]
  rcases Nat.lt_or_ge i 8 with hlow | hhigh
  · simp [lo8, hlow, hi]
  · simp [hi8, lo8, show ¬ i < 8 by omega, show i - 8 < 8 by omega, show 8 + (i - 8) = i by omega]

/-- A byte does not enter the high half. -/
theorem shiftRight_eq_be16_hi8 (c : Word) (b : Byte) : c >>> 8 = be16 0x00#8 (hi8 (c ^^^ b.zeroExtend 16)) := by
  apply BitVec.eq_of_getLsbD_eq
  intro i hi
  rw [BitVec.getLsbD_ushiftRight, be16_getLsbD]
  rcases Nat.lt_or_ge i 8 with hlow | hhigh
  · simp [hi8, hlow]
  · simp [show ¬ i < 8 by omega, show 16 ≤ 8 + i by omega]

/-- Settles O38: the high half of the register with the byte is only shifted, and the low half is the table's index. -/
theorem crcTableFormAndLinearity : Obligations.CrcTableFormAndLinearity := by
  refine ⟨fun c b => ?_, crcByte_xor⟩
  generalize hd : c ^^^ b.zeroExtend 16 = d
  have hinput : crcByte c b = crcByte d 0x00#8 := crcByte_congr (by rw [hd]; exact BitVec.xor_zero.symm)
  have hhigh : crcByte (be16 (hi8 d) 0x00#8) 0x00#8 = c >>> 8 := by
    rw [shiftRight_eq_be16_hi8 c b, hd]
    exact crcByte_eq_be16_zero.mpr rfl
  have hlow : crcByte ((lo8 d).zeroExtend 16) 0x00#8 = crcByte 0#16 (lo8 d) :=
    crcByte_congr (BitVec.xor_comm ..)
  calc crcByte c b = crcByte (be16 (hi8 d) 0x00#8 ^^^ (lo8 d).zeroExtend 16) 0x00#8 := by rw [hinput, ← eq_xor_halves]
    _ = (c >>> 8) ^^^ crcByte 0#16 (lo8 d) := by rw [crcByte_xor, hhigh, hlow]

/-! ### The validator (43_validator.md R161 to R165) -/

theorem valCrc_eq (frame : List Byte) : valCrc frame = if crc16 frame = 0#16 then .pass else .discard :=
  if_congr crcCheck_iff rfl rfl

/-- Settles O40: each check's verdict by its condition, and the cells of the PDU by their indexes. -/
theorem validatorResults : Obligations.ValidatorResults := by
  refine ⟨fun s => ⟨exec_valLen s, ?_, exec_valAddr s⟩,
    fun s hlen => ⟨valPdu s, exec_valPdu s, rfl, rfl, ?_, fun i hi => ?_⟩⟩
  · rw [exec_valCrc, valCrc_eq]
    rfl
  · rw [valPdu, State.rxSlice_length]
    omega
  · exact s.rxSlice_getElem? (by omega)

/-- Settles O41: both are the release. -/
theorem discardAndReleaseResults : Obligations.DiscardAndReleaseResults := fun s => ⟨exec_discard s, exec_rel s⟩

/-! ### The codes raised (60_exceptions.md R250) -/

theorem rhr_eq_exception {e c : Byte} {data : List Byte} {store : List Word} (h : rhr e data store = .exception c) :
    (data.length = 4 ∧ excByte .illegalDataAddress = some c) ∨ (data.length ≠ 4 ∧ c = e) := by
  by_cases hlen : data.length = 4
  · obtain ⟨d0, d1, d2, d3, rfl⟩ := List.length_eq_four.mp hlen
    by_cases hin : 1 ≤ 256 * d2.toNat + d3.toNat ∧ 256 * d2.toNat + d3.toNat ≤ 125 ∧
      40000 ≤ 256 * d0.toNat + d1.toNat ∧
      256 * d0.toNat + d1.toNat + (256 * d2.toNat + d3.toNat) ≤ 40000 + store.length
    · obtain ⟨hpos, hmax, hlo, hhi⟩ := hin
      rw [rhr_inWindow e hpos hmax hlo hhi] at h
      cases h
    · rw [rhr_outsideWindow e (by omega)] at h
      exact .inl ⟨hlen, congrArg some (Handled.exception.inj h)⟩
  · rw [rhr_badLength e store hlen] at h
    exact .inr ⟨hlen, (Handled.exception.inj h).symm⟩

theorem wsr_eq_exception {e c : Byte} {data : List Byte} {store : List Word} (h : wsr e data store = .exception c) :
    (data.length = 4 ∧ excByte .illegalDataAddress = some c) ∨ (data.length ≠ 4 ∧ c = e) := by
  by_cases hlen : data.length = 4
  · obtain ⟨d0, d1, d2, d3, rfl⟩ := List.length_eq_four.mp hlen
    by_cases hin : 40000 ≤ 256 * d0.toNat + d1.toNat ∧ 256 * d0.toNat + d1.toNat < 40000 + store.length
    · obtain ⟨hlo, hhi⟩ := hin
      rw [wsr_inWindow e hlo hhi] at h
      cases h
    · rw [wsr_outsideWindow e (by omega)] at h
      exact .inl ⟨hlen, congrArg some (Handled.exception.inj h)⟩
  · rw [wsr_badLength e store hlen] at h
    exact .inr ⟨hlen, (Handled.exception.inj h).symm⟩

theorem Handled.result_eq_exception {h : Handled} {c : Byte} : h.result = .exception c ↔ h = .exception c := by
  cases h <;> simp [Handled.result]

/-- Settles O47: what the latch shows is the code the handler raised. -/
theorem onlyTheListedCodesAreRaised : Obligations.OnlyTheListedCodesAreRaised := by
  intro s t fc data c
  refine ⟨fun hexec hlatch => ?_, fun hexec hlatch => ?_⟩
  · rcases hexec with hexec | hexec <;> cases hexec
    · exact rhr_eq_exception (Handled.result_eq_exception.mp hlatch)
    · exact wsr_eq_exception (Handled.result_eq_exception.mp hlatch)
  · cases hexec
    exact congrArg some (HandlerResult.exception.inj hlatch)

/-! ### The builder (45_response_builder.md R214) -/

/-- Settles O49: with BCAST_TX false only address 0 is not sent to. -/
theorem sendHandsOverUnlessBroadcast : Obligations.SendHandsOverUnlessBroadcast := by
  intro s a
  refine ⟨fun hunicast => ?_, fun hbcast => ?_⟩
  · rw [exec_snd, State.transmit, if_pos (.inl hunicast)]
    rfl
  · rw [exec_snd, State.transmit, if_neg (by simp [hbcast])]

/-! ### Operations that leave a result only (30_encoding.md R82) -/

theorem eq_of_exec_withLatch {s t : State} {i : Instr} {l : Latch} (hexec : exec i s = .next t)
    (h : exec i s = .next (s.withLatch l)) : t = { s with latch := t.latch } := by
  rw [Host.Outcome.next.inj (hexec.symm.trans h)]
  rfl

/-- A read leaves the store, so only its latch. -/
theorem exec_rhr_eq_withLatch (data : List Byte) (s : State) :
    exec (.rhr data) s =
      .next (s.withLatch { s.latch with handled := (rhr Config.excBadLength data s.store).result }) := by
  rw [exec_rhr, State.latchHandled, rhr_storeAfter]
  rfl

/-- Settles O57: each of the twelve leaves the state with another latch. -/
theorem pureOperationsChangeOnlyTheirLatch : Obligations.PureOperationsChangeOnlyTheirLatch := by
  intro s t i hi hexec
  rcases hi with rfl | ⟨c, rfl⟩ | ⟨c, b, rfl⟩ | ⟨bs, rfl⟩ | ⟨bs, rfl⟩ | ⟨bs, rfl⟩ | rfl | rfl | rfl | rfl | ⟨d, rfl⟩ |
    ⟨fc, d, rfl⟩
  · exact eq_of_exec_withLatch hexec (exec_crcInit s)
  · exact eq_of_exec_withLatch hexec (exec_crcBit c s)
  · exact eq_of_exec_withLatch hexec (exec_crcByte c b s)
  · exact eq_of_exec_withLatch hexec (exec_crcBlk bs s)
  · exact eq_of_exec_withLatch hexec (exec_crcChk bs s)
  · exact eq_of_exec_withLatch hexec (exec_crcApp bs s)
  · exact eq_of_exec_withLatch hexec (exec_valLen s)
  · exact eq_of_exec_withLatch hexec (exec_valCrc s)
  · exact eq_of_exec_withLatch hexec (exec_valAddr s)
  · exact eq_of_exec_withLatch hexec (exec_valPdu s)
  · exact eq_of_exec_withLatch hexec (exec_rhr_eq_withLatch d s)
  · exact eq_of_exec_withLatch hexec (exec_fcx fc d s)

/-! ### PRC with any dispatcher (44_dispatcher_and_store.md R181) -/

theorem validate_eq_none_iff_not {s : State} :
    validate s = none ↔
      ¬ (4 ≤ s.len ∧ crc16 s.rxFrame = 0#16 ∧ (s.rxByte 0 = s.addr ∨ s.rxByte 0 = 0#8)) := by
  rw [← validate_eq_valPdu_iff]
  cases hv : validate s with
  | none => simp
  | some p => simp [(validate_eq_some.mp hv).2]

/-- Settles O55: a frame that passes is answered by what the function gives, and any other is released. -/
theorem anyDispatcherGetsAGoodResponse : Obligations.AnyDispatcherGetsAGoodResponse := by
  intro d tx s hc
  refine ⟨fun hpass => ?_, fun hfail => process_of_validate_none d tx hc (validate_eq_none_iff_not.mpr hfail)⟩
  have hprocess := process_of_validate d tx hc (validate_eq_valPdu_iff.mpr hpass)
  rcases hd : d (valPdu s).fc (valPdu s).data s.store with ⟨fc, p, store⟩
  rw [hd] at hprocess
  have htxlen : (truncate p).length + 4 = min p.length 252 + 4 := by rw [truncate, List.length_take, min_comm]
  have hstate := s.answer_eq tx (valPdu s).addr fc p store
  have hlen := s.answer_txlen tx (valPdu s).addr fc p store
  have hframe := s.answer_txFrame tx (valPdu s).addr fc p store
  rw [htxlen] at hstate hlen
  refine ⟨s.answer tx (valPdu s).addr fc p store, fc, p, store, hprocess, hd, hstate, hframe, ?_, ?_, ?_,
    fun i hi => s.answer_txByte_above tx (valPdu s).addr fc p store hi⟩
  · omega
  · omega
  · rw [hframe]
    exact (response_good ..).2.2

end Sys2Proof.Machine
end
